-- ==== Sys2Proof/Word.lean ====
section
/-! DEFINITION. The two bit-vector widths of the block: the byte of the buffers and tables, and the 32-bit register and command word (R11, R18, R43). -/

namespace Sys2Proof

/-- One byte of a buffer or of a constant table (R43). -/
abbrev Byte := BitVec 8

/-- One 32-bit register value or command word (R11, R18, R57). -/
abbrev Word := BitVec 32

end Sys2Proof
end

