-- ==== Sys2Proof/Config.lean ====
section
/-! DEFINITION. The configuration of the block (R7, R8, R15, R137): the two buffer capacities and the alphabet, fixed for a run; and the two uninterpreted sources of every value the spec calls unspecified (R13). -/

namespace Sys2Proof

/-- The parameters of R7 and R8.  They are arguments of the model, not machine state: the state carries
one value of this type that no step changes (log entry 1). -/
structure Config where
  /-- `IN_CAP`, the number of bytes of IN_BUF (R7). -/
  inCap : Nat
  /-- `OUT_CAP`, the number of bytes of OUT_BUF (R7). -/
  outCap : Nat
  /-- `ALPHABET`, the 91 symbols in index order (R8). -/
  alphabet : List Byte
deriving DecidableEq, Repr

/-- `enc_len(N)` of R86: the number of symbols that `N` bytes encode to.  It stands here because R7
constrains the capacities by it. -/
def encLen (N : Nat) : Nat :=
  2 * (8 * N / 13) +
    (if 8 * N % 13 = 0 then 0 else if 8 * N % 13 ≤ 6 then 1 else 2)

/-- Entry `i` of the alphabet this hardware takes, in the closed form of R72. -/
def Config.r72Symbol (i : Nat) : Byte :=
  if i = 0 then 0x21#8
  else if i ≤ 61 then BitVec.ofNat 8 (0x22 + i)
  else BitVec.ofNat 8 (0x23 + i)

/-- The alphabet of R72: the 91 bytes of `[0x21, 0x7D]` other than 0x22 and 0x60, ascending. -/
def Config.r72Alphabet : List Byte := (List.range 91).map Config.r72Symbol

/-- The configuration that `State.reset` carries.  The alphabet is the spec's choice (R72, log entry 3).
DESIGN CHOICE (log entry 2, unsafe): the two capacities are open in the spec (R7, D12); any pair that
meets R7 would do, and no statement rests on this one. -/
def Config.hardware : Config where
  inCap := 65536
  outCap := 80660
  alphabet := Config.r72Alphabet

/-- `draw()` of R13 for a byte: the value of the `n`-th draw, under no law (log entry 8, safe). -/
opaque Config.drawByte : Nat → BitVec 8

/-- `draw()` of R13 for a 32-bit register: the value of the `n`-th draw, under no law (log entry 8, safe). -/
opaque Config.drawWord : Nat → BitVec 32

end Sys2Proof
end

