-- ==== Sys2Proof/Syntax.lean ====
section
/-! DEFINITION. What the agents can ask of the block: the four commands of the opcode table (R59), the Host's accesses (R42, R67), the turns of the three agents (R6, R51) and the pseudo-commands (R68). -/

namespace Sys2Proof

/-- The commands of the opcode table (R59).  A command word carries no operands (R57), so no
constructor has an argument. -/
inductive Instr where
  /-- ENC, word 0x00000001 (R88). -/
  | enc
  /-- DEC, word 0x00000002 (R102). -/
  | dec
  /-- SYM, word 0x00000003 (R76). -/
  | sym
  /-- IDX, word 0x00000004 (R78). -/
  | idx
deriving DecidableEq, Repr

/-- The five address spaces of R43. -/
inductive Space where
  | reg
  | inBuf
  | outBuf
  | alphaRom
  | ridxRom
deriving DecidableEq, Repr

/-- The direction of a Host access, with the value on the write bus.  An 8-bit write carries its value
in bits `[7:0]` (log entry 11). -/
inductive Dir where
  | read
  | write (data : Word)
deriving DecidableEq, Repr

/-- One Host access as R67 encodes it: `(space, offset or index, direction, width in bits, data)`.  Any
such tuple is an access; R42 says which are admitted. -/
structure HostAccess where
  space : Space
  index : Nat
  width : Nat
  dir   : Dir
deriving DecidableEq, Repr

/-- Who moves next (R6, R15): the Host with one access, the Engine, or Reset. -/
inductive Turn where
  | host (a : HostAccess)
  | engine
  | reset
deriving DecidableEq, Repr

/-- The pseudo-commands of R68.  `poll again` is a POLL whose STATUS read is repeated `again` times
before the read that ends it (log entry 22). -/
inductive Pseudo where
  | runEnc
  | runDec
  | runSym
  | runIdx
  | encStr
  | decStr
  | poll (again : Nat)
deriving DecidableEq, Repr

end Sys2Proof
end

