-- ==== Sys2Proof/WellFormed.lean ====
section
/-! DEFINITION. The checks on syntax and configuration: command words (R58, R59), the alphabet (R8, R69, R70) and the capacities (R7).  Which Host accesses are admitted (R42) is a check against the configuration and stands with the Host port. -/

namespace Sys2Proof

/-- Every command is well formed: it carries no operand (R57), so there is nothing to check. -/
def Instr.wf : Instr → Bool
  | .enc => true
  | .dec => true
  | .sym => true
  | .idx => true

/-- A command word that selects a command (R58, R59): bits `[31:4]` zero and OP in 1..4.  Every other
word is reserved. -/
abbrev CommandWord.wf (w : Word) : Prop :=
  w.extractLsb' 4 28 = 0#28 ∧ 1 ≤ (w.extractLsb' 0 4).toNat ∧ (w.extractLsb' 0 4).toNat ≤ 4

/-- The alphabet constraints of R8, R69 and R70: 91 distinct printable bytes of `[0x21, 0x7D]` other
than 0x22, with `!` at index 0. -/
abbrev Alphabet.wf (α : List Byte) : Prop :=
  α.length = 91 ∧ α.Nodup ∧
    (∀ b ∈ α, 0x21 ≤ b.toNat ∧ b.toNat ≤ 0x7D ∧ b ≠ 0x22#8) ∧ α.head? = some 0x21#8

/-- The constraints of R7 and R8 on the configuration. -/
abbrev Config.wf (c : Config) : Prop :=
  1 ≤ c.inCap ∧ c.inCap ≤ 2 ^ 32 - 1 ∧ encLen c.inCap ≤ c.outCap ∧ Alphabet.wf c.alphabet

end Sys2Proof
end

