-- ==== Sys2Proof/Decode.lean ====
section
/-! DEFINITION. The command word (R57 to R60): the decoder, total on every 32-bit word, and after it the encoder. -/

namespace Sys2Proof

/-- Why a word is reserved (R58, R59, R65, R66): named, so that no reserved word falls through to a
command. -/
inductive ReservedWord where
  /-- Some bit of the ZERO field `[31:4]` is set. -/
  | zeroFieldSet
  /-- OP is 0 or 5..15; word 0 is no no-op (R66). -/
  | unassignedOp
deriving DecidableEq, Repr

/-- What the decoder answers. -/
inductive Decoded where
  | command (i : Instr)
  | reserved (why : ReservedWord)
deriving DecidableEq, Repr

/-- The OP field, bits `[3:0]` (R58). -/
def opField (w : Word) : BitVec 4 := w.extractLsb' 0 4

/-- The ZERO field, bits `[31:4]` (R58). -/
def zeroField (w : Word) : BitVec 28 := w.extractLsb' 4 28

/-- The command that an OP value selects when the ZERO field is 0 (R59). -/
def decodeOp (op : BitVec 4) : Decoded :=
  if op = 1#4 then .command .enc
  else if op = 2#4 then .command .dec
  else if op = 3#4 then .command .sym
  else if op = 4#4 then .command .idx
  else .reserved .unassignedOp

/-- The opcode map of R59, read through the fields of R58. -/
def decode (w : Word) : Decoded :=
  if zeroField w = 0#28 then decodeOp (opField w) else .reserved .zeroFieldSet

/-- The decoded command, if the word selects one. -/
def Decoded.toOption : Decoded → Option Instr
  | .command i => some i
  | .reserved _ => none

/-- The command word of each command (R59). -/
def encode : Instr → Word
  | .enc => 0x00000001#32
  | .dec => 0x00000002#32
  | .sym => 0x00000003#32
  | .idx => 0x00000004#32

/-- The command the decoder reads from the `nbits` bits of `w`, the bits above them zero.  A command is
one 32-bit word written whole to CMD (R57); its byte lanes are not observable in this model (R45), so no
byte order enters.  More than 32 bits are no command word. -/
def decodeTableWord (nbits w : Nat) : Option Instr :=
  if w % 2 ^ nbits < 2 ^ 32 then (decode (BitVec.ofNat 32 (w % 2 ^ nbits))).toOption else none

end Sys2Proof
end

