-- ==== Sys2Proof/Machine/State.lean ====
section
/-! DEFINITION. The machine state of R15 as plain data, the values it is made of, the outcomes a step can have, and the state after reset (R135). -/

namespace Sys2Proof.Machine

/-- A buffer of R43 and R46: the bytes that hold `some b`, as (index, byte) pairs.  An index that is not
listed holds `none`, the spec's "unspecified": reset leaves every byte so (R135), and a read of it is
`draw()` (R46).  One canonical form: indices strictly rising (`Memory.wf`). -/
abbrev Memory := List Host.Cell

/-- The canonical form of a buffer: indices strictly rising, so that equal buffers are equal lists. -/
abbrev Memory.wf (m : Memory) : Prop := m.Pairwise (fun a b => a.1 < b.1)

/-- The hidden LATCH of R15 and R33: the command in progress and its operands as they stood at accept. -/
structure Latch where
  op  : Word
  len : Word
  arg : Byte
  ps  : Bool
  ts  : Bool
deriving DecidableEq, Repr

/-- The error causes of R111 to R116.  Code 0 of R117 is no error; codes 7 to 15 are never produced. -/
inductive ErrorCode where
  /-- R111: a DEC input byte that is no symbol. -/
  | invalidSymbol
  /-- R112: a DEC pair above 8191 with PAIR_STRICT latched. -/
  | pairOverflow
  /-- R113: a DEC tail index above 63 with TAIL_STRICT latched. -/
  | tailOverflow
  /-- R114: an ENC or DEC length above IN_CAP. -/
  | badLength
  /-- R115: a SYM argument above 90. -/
  | badArg
  /-- R116: a reserved command word. -/
  | badOpcode
deriving DecidableEq, Repr

/-- What the last Host read returned (log entry 10): the model's own output, no register of the block. -/
inductive ReadData where
  /-- No Host read has been taken. -/
  | nothing
  /-- A 32-bit read of the REG space. -/
  | word (v : Word)
  /-- An 8-bit read of a buffer. -/
  | byte (b : Byte)
deriving DecidableEq, Repr

/-- Why the machine stops. -/
inductive Fault where
  /-- The Engine is to complete a command though LATCH holds none.  R20 rules the state out (while BUSY
  is 1, LATCH is some value), so the spec gives no effect.  Raised by `withLatch` and `engineStep`; safe:
  no run from a state that meets `State.Inv` raises it (log entry 7). -/
  | noCommandLatched
deriving DecidableEq, Repr

/-- Why an instruction has no meaning. -/
inductive Refusal where
  /-- An instruction that exec rejects by name.  No arm does so; safe. -/
  | notModelled (mnemonic : String)
deriving DecidableEq, Repr

/-- The state of R15, field by field, and after it the model's own four fields. -/
structure State where
  /-- CFG[0], interrupt enable (R25). -/
  cfgIe : Bool
  /-- CFG[1] (R25). -/
  cfgPairStrict : Bool
  /-- CFG[2] (R25). -/
  cfgTailStrict : Bool
  /-- SRC_LEN (R26). -/
  srcLen : Word
  /-- ARG[7:0] (R28). -/
  arg : Byte
  /-- DST_LEN (R27). -/
  dstLen : Word
  /-- RESULT[7:0] (R29). -/
  result : Byte
  /-- ERR_POS (R30). -/
  errPos : Word
  /-- STATUS[0] (R20). -/
  busy : Bool
  /-- STATUS[1] (R21). -/
  done : Bool
  /-- STATUS[2] (R22). -/
  err : Bool
  /-- STATUS[3] (R23). -/
  werr : Bool
  /-- STATUS[11:8] (R24). -/
  errCode : BitVec 4
  /-- LATCH (R33). -/
  latch : Option Latch
  /-- IN_BUF (R43, R46). -/
  inBuf : Memory
  /-- OUT_BUF (R43, R46). -/
  outBuf : Memory
  /-- REFUSED (R36). -/
  refused : Bool
  /-- The model's own: the parameters of R7 and R8, which no step changes (log entry 1). -/
  config : Config
  /-- The model's own: how many `draw()` values have been taken (R13, log entry 8). -/
  draws : Nat
  /-- The model's own: what the last Host read returned (log entry 10). -/
  readData : ReadData
  /-- The model's own: the turns to come, first turn first (R51, log entry 4). -/
  schedule : List Turn
deriving DecidableEq, Repr

/-- The block right after reset (R135, R18), with REFUSED false (log entry 12), the configuration of
this hardware, and no turn scheduled. -/
def State.reset : State where
  cfgIe := false
  cfgPairStrict := false
  cfgTailStrict := false
  srcLen := 0
  arg := 0
  dstLen := 0
  result := 0
  errPos := 0
  busy := false
  done := false
  err := false
  werr := false
  errCode := 0
  latch := none
  inBuf := []
  outBuf := []
  refused := false
  config := Config.hardware
  draws := 0
  readData := .nothing
  schedule := []

end Sys2Proof.Machine
end

