-- ==== Sys2Proof/Machine/Ops.lean ====
section
/-! DEFINITION. The operations the steps share: one byte of a buffer, `draw()`, accept (R37), the write-backs of a completion (R39, R41, R120) and reset (R135). -/

namespace Sys2Proof.Machine

/-! ## Buffers -/

/-- Byte `i` of a buffer: `some b`, or `none` for an unspecified byte (R46). -/
def Memory.read : Memory → Nat → Option Byte
  | [], _ => none
  | (j, b) :: m, i => if i = j then some b else Memory.read m i

/-- `MemWrite(IN, i, 1, b)` of R46: byte `i` becomes `some b`.  Keeps the indices rising. -/
def Memory.write : Memory → Nat → Byte → Memory
  | [], i, b => [(i, b)]
  | (j, c) :: m, i, b =>
    if i < j then (i, b) :: (j, c) :: m
    else if i = j then (i, b) :: m
    else (j, c) :: Memory.write m i b

/-- The buffer whose byte `i + t` is `some O[t]` and whose other bytes are `none`. -/
def Memory.ofBytesFrom : Nat → List Byte → Memory
  | _, [] => []
  | i, b :: O => (i, b) :: Memory.ofBytesFrom (i + 1) O

/-- OUT_BUF after a successful ENC or DEC (R41): `some O[i]` below the length, `none` from it on. -/
def Memory.ofBytes (O : List Byte) : Memory := Memory.ofBytesFrom 0 O

/-- A buffer that holds no byte: all of it is unspecified (R120, R135). -/
def Memory.unspecified : Memory := []

/-- The Engine's reads of a command's input (R53, R88, R102): the bytes `i .. i+n-1` in index order, each
read once, an unspecified byte contributing one draw.  Answers the bytes and the number of draws taken
so far. -/
def Memory.fetch (m : Memory) : Nat → Nat → Nat → List Byte × Nat
  | 0, _, d => ([], d)
  | n + 1, i, d =>
    match Memory.read m i with
    | some b =>
      let r := Memory.fetch m n (i + 1) d
      (b :: r.1, r.2)
    | none =>
      let r := Memory.fetch m n (i + 1) (d + 1)
      (Config.drawByte d :: r.1, r.2)

/-! ## Accept -/

/-- What a Host write of `v` to CMD latches (R33, R37). -/
def State.latchOf (v : Word) (s : State) : Latch where
  op := v
  len := s.srcLen
  arg := s.arg
  ps := s.cfgPairStrict
  ts := s.cfgTailStrict

/-- Accept (R37).  It is also the only return from an error that there is: it clears the record of the
last error in STATUS (R121). -/
def State.accept (v : Word) (s : State) : State :=
  { s with
    latch := some (s.latchOf v)
    busy := true
    done := false
    err := false
    errCode := 0 }

/-! ## Completion -/

/-- ERRCODE of each cause (R117). -/
def ErrorCode.code : ErrorCode → BitVec 4
  | .invalidSymbol => 1
  | .pairOverflow => 2
  | .tailOverflow => 3
  | .badLength => 4
  | .badArg => 5
  | .badOpcode => 6

/-- The causes after which DST_LEN is 0 and all of OUT_BUF is unspecified (R120). -/
def ErrorCode.clearsOutput : ErrorCode → Bool
  | .invalidSymbol => true
  | .pairOverflow => true
  | .tailOverflow => true
  | .badLength => true
  | .badArg => false
  | .badOpcode => false

/-- The cause after which RESULT is 0 (R120). -/
def ErrorCode.clearsResult : ErrorCode → Bool
  | .badArg => true
  | .invalidSymbol => false
  | .pairOverflow => false
  | .tailOverflow => false
  | .badLength => false
  | .badOpcode => false

/-- DST_LEN after an output of `n` bytes (R41).  R7 admits capacities whose output length does not fit
in the 32 bits of R27; the spec states no value there, so it is a draw (DESIGN CHOICE, log entry 9,
safe). -/
def State.lengthWord (n : Nat) (s : State) : Word :=
  if n < 2 ^ 32 then BitVec.ofNat 32 n else Config.drawWord s.draws

/-- The number of draws taken once `lengthWord` has been read. -/
def State.drawsAfterLength (n : Nat) (s : State) : Nat :=
  if n < 2 ^ 32 then s.draws else s.draws + 1

/-- Completion of ENC or DEC with the output bytes `O` (R39, R41).  ERR and ERRCODE are 0 on success
(R22, R24, log entry 15).  R7 makes the output fit in OUT_BUF (log entry 14). -/
def State.completeBytes (O : List Byte) (s : State) : State :=
  { s with
    outBuf := Memory.ofBytes O
    dstLen := s.lengthWord O.length
    draws := s.drawsAfterLength O.length
    errPos := 0
    err := false
    errCode := 0
    busy := false
    done := true
    latch := none }

/-- Completion of SYM or IDX with the 8-bit result `r` (R39, R41). -/
def State.completeByte (r : Byte) (s : State) : State :=
  { s with
    result := r
    errPos := 0
    err := false
    errCode := 0
    busy := false
    done := true
    latch := none }

/-- TAKING AN ERROR: the error completion of R120 with R39, this block's whole "trap entry".  There is
no vector and no handler, so control goes nowhere (R16, R128). -/
def State.completeErr (c : ErrorCode) (pos : Nat) (s : State) : State :=
  { s with
    err := true
    errCode := c.code
    errPos := BitVec.ofNat 32 pos
    dstLen := if c.clearsOutput then 0 else s.dstLen
    outBuf := if c.clearsOutput then Memory.unspecified else s.outBuf
    result := if c.clearsResult then 0 else s.result
    busy := false
    done := true
    latch := none }

/-! ## Reset -/

/-- The reset action of R135, by the Reset agent at any point (R133), a running command abandoned
(R136).  REFUSED and the configuration are not changed (R36, R137), nor are the model's own fields
(log entries 16 and 17). -/
def State.resetAction (s : State) : State :=
  { s with
    cfgIe := false
    cfgPairStrict := false
    cfgTailStrict := false
    srcLen := 0
    arg := 0
    dstLen := 0
    result := 0
    errPos := 0
    busy := false
    done := false
    err := false
    werr := false
    errCode := 0
    latch := none
    inBuf := Memory.unspecified
    outBuf := Memory.unspecified }

end Sys2Proof.Machine
end

