-- ==== Sys2Proof/Machine/Operands.lean ====
section
/-! DEFINITION. Operand assembly (R61): every command reads its operands from LATCH only, never from the live registers. -/

namespace Sys2Proof.Machine

/-- Run a completion on the latched command.  Completion is enabled only when LATCH is some value (R39);
where it is none the machine is stuck (log entry 7, safe). -/
def withLatch (s : State) (f : Latch → State) : Host.Outcome State Fault Refusal :=
  match s.latch with
  | some l => .next (f l)
  | none => .fault .noCommandLatched

/-- `len` of ENC and DEC (R61): the latched count, zero-extended. -/
def Latch.length (l : Latch) : Nat := l.len.toNat

/-- `index` of SYM (R61): the latched argument, zero-extended. -/
def Latch.index (l : Latch) : Nat := l.arg.toNat

/-- The input `IN_BUF[0 .. len-1]` that ENC and DEC read (R61). -/
def State.input (l : Latch) (s : State) : List Byte := (s.inBuf.fetch l.length 0 s.draws).1

/-- The state once the input has been read: only the count of draws has moved (R46, R53). -/
def State.afterInput (l : Latch) (s : State) : State :=
  { s with draws := (s.inBuf.fetch l.length 0 s.draws).2 }

end Sys2Proof.Machine
end

