-- ==== Sys2Proof/Machine/Alphabet.lean ====
section
/-! DEFINITION. The alphabet mapper: the two constant tables (R35, R72, R73), the mapping functions (R74, R75) and the commands SYM (R76) and IDX (R78). -/

namespace Sys2Proof.Machine

/-- The alphabet size of R10. -/
def alphabetSize : Nat := 91

/-- `symbol_at(i)`, one read of ALPHA_ROM (R74).  The table has an entry for each `i` in 0..90; no
command asks for another (R74, R76; log entry 13). -/
def symbolAt (α : List Byte) (i : Nat) : Byte := α.getD i 0#8

/-- The sentinel of RIDX_ROM (R73). -/
def invalidEntry : Byte := 0xFF#8

/-- Entry `b` of RIDX_ROM (R73): the index of `b` in the alphabet, or the sentinel. -/
def ridxRom (α : List Byte) (b : Byte) : Byte :=
  match α.idxOf? b with
  | some i => BitVec.ofNat 8 i
  | none => invalidEntry

/-- `index_of(b)`, one read of RIDX_ROM (R75): `none` is the spec's "invalid". -/
def indexOf (α : List Byte) (b : Byte) : Option Nat :=
  if ridxRom α b = invalidEntry then none else some (ridxRom α b).toNat

/-- SYM_exec and its write-back (R76): BAD_ARG above 90, otherwise the symbol goes to RESULT. -/
def execSym (s : State) : Host.Outcome State Fault Refusal :=
  withLatch s fun l =>
    if 90 < l.index then s.completeErr .badArg 0
    else s.completeByte (symbolAt s.config.alphabet l.index)

/-- IDX_exec and its write-back (R78): total; an invalid byte gives RESULT = 0xFF with ERR = 0. -/
def execIdx (s : State) : Host.Outcome State Fault Refusal :=
  withLatch s fun l => s.completeByte (ridxRom s.config.alphabet l.arg)

end Sys2Proof.Machine
end

