-- ==== Sys2Proof/Machine/Bits.lean ====
section
/-! DEFINITION. Bit sequences in the notation of R12: most significant bit first everywhere (R44). -/

namespace Sys2Proof.Machine

/-- `bitsN(v)` of R12: the `n`-bit most-significant-bit-first representation of `v`. -/
def bitsN (n v : Nat) : List Bool := (List.range n).map (fun p => v.testBit (n - 1 - p))

/-- `val(s)` of R12: the unsigned value of a bit sequence read most significant bit first. -/
def val (s : List Bool) : Nat := s.foldl (fun acc b => 2 * acc + b.toNat) 0

/-- `zeros(k)` of R12. -/
def zeros (k : Nat) : List Bool := List.replicate k false

/-- `s[a .. a+len)` of R12. -/
def slice (s : List Bool) (a len : Nat) : List Bool := (s.drop a).take len

/-- `bits8(b)` of R12 and R44. -/
def bits8 (b : Byte) : List Bool := bitsN 8 b.toNat

/-- The bit sequence of a byte buffer (R44, R80). -/
def bitSequence (B : List Byte) : List Bool := B.flatMap bits8

/-- The byte a group of eight bits stands for (R101). -/
def byteOfBits (s : List Bool) : Byte := BitVec.ofNat 8 (val s)

/-- Regrouping of R101: bytes from the left; a final group of fewer than eight bits is discarded. -/
def regroup (A : List Bool) : List Byte :=
  (List.range (A.length / 8)).map (fun t => byteOfBits (slice A (8 * t) 8))

end Sys2Proof.Machine
end

