-- ==== Sys2Proof/Machine/Decoder.lean ====
section
/-! DEFINITION. The decoder (R93 to R101) and the command DEC (R102). -/

namespace Sys2Proof.Machine

/-- What a scan of symbols gives: the accumulated bits, or the first error with its position. -/
inductive Scan where
  | bits (A : List Bool)
  | err (c : ErrorCode) (pos : Nat)
deriving DecidableEq, Repr

/-- The bits of one group put before what the rest of the scan gives. -/
def Scan.prepend (A : List Bool) : Scan → Scan
  | .bits A' => .bits (A ++ A')
  | .err c pos => .err c pos

/-- The outcome of `dec` (R100). -/
inductive DecResult where
  | ok (O : List Byte)
  | err (c : ErrorCode) (pos : Nat)
deriving DecidableEq, Repr

/-- One pair at position `pos` (R95, R96, R98): first symbol, second symbol, then the strict check. -/
def decodePair (α : List Byte) (ps : Bool) (pos : Nat) (s1 s2 : Byte) : Scan :=
  match indexOf α s1, indexOf α s2 with
  | none, _ => .err .invalidSymbol pos
  | some _, none => .err .invalidSymbol (pos + 1)
  | some i1, some i2 =>
    if i1 * alphabetSize + i2 > 8191 ∧ ps = true then .err .pairOverflow pos
    else .bits (bitsN 13 ((i1 * alphabetSize + i2) % 8192))

/-- The single symbol of an odd tail at position `pos` (R97, R99): validity, then the strict check. -/
def decodeTail (α : List Byte) (ts : Bool) (pos : Nat) (s : Byte) : Scan :=
  match indexOf α s with
  | none => .err .invalidSymbol pos
  | some i =>
    if i > 63 ∧ ts = true then .err .tailOverflow pos
    else .bits (bitsN 6 (i % 64))

/-- The scan of R94 from position `pos`: pairs from the left, then the odd tail; the first error ends
it. -/
def scanSymbols (α : List Byte) (ps ts : Bool) : Nat → List Byte → Scan
  | _, [] => .bits []
  | pos, [s] => decodeTail α ts pos s
  | pos, s1 :: s2 :: rest =>
    match decodePair α ps pos s1 s2 with
    | .err c p => .err c p
    | .bits A => (scanSymbols α ps ts (pos + 2) rest).prepend A

/-- The decode function of R100. -/
def dec (α : List Byte) (S : List Byte) (ps ts : Bool) : DecResult :=
  match scanSymbols α ps ts 0 S with
  | .bits A => .ok (regroup A)
  | .err c pos => .err c pos

/-- `dec_len(M)` of R103: the output length of a successful decode of `M` symbols. -/
def decLen (M : Nat) : Nat := (13 * (M / 2) + 6 * (M % 2)) / 8

/-- The write-back of a decode's outcome (R102): R41 on success, R120 on an error. -/
def State.completeDec (r : DecResult) (s : State) : State :=
  match r with
  | .ok O => s.completeBytes O
  | .err c pos => s.completeErr c pos

/-- DEC_exec and its write-back (R102): BAD_LENGTH before any input is read, otherwise the outcome of
`dec` on the input. -/
def execDec (s : State) : Host.Outcome State Fault Refusal :=
  withLatch s fun l =>
    if s.config.inCap < l.length then s.completeErr .badLength 0
    else (s.afterInput l).completeDec (dec s.config.alphabet (s.input l) l.ps l.ts)

end Sys2Proof.Machine
end

