-- ==== Sys2Proof/Machine/Encoder.lean ====
section
/-! DEFINITION. The bit chunker and the encoder (R80 to R87), and the command ENC (R88). -/

namespace Sys2Proof.Machine

/-- The pair of symbols of a 13-bit value (R62, R82). -/
def pairSymbols (α : List Byte) (V : Nat) : List Byte :=
  [symbolAt α (V / alphabetSize), symbolAt α (V % alphabetSize)]

/-- The full chunk `C_j` of R81. -/
def fullChunk (S : List Bool) (j : Nat) : List Bool := slice S (13 * j) 13

/-- The short final chunk of R81: what is left after the full chunks, 0 to 12 bits. -/
def finalChunk (S : List Bool) : List Bool := slice S (13 * (S.length / 13)) (S.length % 13)

/-- The group of the final chunk `T` (R63, R83, R84): none for an empty chunk, a single for 1 to 6 bits,
a pair for 7 to 12 bits, padded with zero bits on the right. -/
def finalGroup (α : List Byte) (T : List Bool) : List Byte :=
  if T.length = 0 then []
  else if T.length ≤ 6 then [symbolAt α (val (T ++ zeros (6 - T.length)))]
  else pairSymbols α (val (T ++ zeros (13 - T.length)))

/-- The groups of a bit sequence in chunk order (R63, R85). -/
def encodeBits (α : List Byte) (S : List Bool) : List Byte :=
  (List.range (S.length / 13)).flatMap (fun j => pairSymbols α (val (fullChunk S j))) ++
    finalGroup α (finalChunk S)

/-- The encode function of R85, total on every byte list. -/
def enc (α : List Byte) (B : List Byte) : List Byte := encodeBits α (bitSequence B)

/-- ENC_exec and its write-back (R88): BAD_LENGTH before any input is read, otherwise the encoded input
goes to OUT_BUF and its length to DST_LEN. -/
def execEnc (s : State) : Host.Outcome State Fault Refusal :=
  withLatch s fun l =>
    if s.config.inCap < l.length then s.completeErr .badLength 0
    else (s.afterInput l).completeBytes (enc s.config.alphabet (s.input l))

end Sys2Proof.Machine
end

