-- ==== Sys2Proof/Machine/Flags.lean ====
section
/-! DEFINITION. The words of STATUS, CFG and ARG as the Host sees them, the write effects on STATUS, and the interrupt output (R20 to R25, R28, R32). -/

namespace Sys2Proof.Machine

/-- The STATUS word (R20 to R24): `BUSY | DONE<<1 | ERR<<2 | WERR<<3 | ERRCODE<<8`, reserved bits 0. -/
def State.statusWord (s : State) : Word :=
  0#20 ++ s.errCode ++ 0#4 ++ BitVec.ofBool s.werr ++ BitVec.ofBool s.err ++
    BitVec.ofBool s.done ++ BitVec.ofBool s.busy

/-- The CFG word (R25), reserved bits 0. -/
def State.cfgWord (s : State) : Word :=
  0#29 ++ BitVec.ofBool s.cfgTailStrict ++ BitVec.ofBool s.cfgPairStrict ++ BitVec.ofBool s.cfgIe

/-- A Host write to STATUS: DONE and WERR are write-1-to-clear, every other bit ignores it (R21, R23,
R24). -/
def State.writeStatus (v : Word) (s : State) : State :=
  { s with
    done := s.done && !v.getLsbD 1
    werr := s.werr && !v.getLsbD 3 }

/-- A Host write to CFG (R25): bits `[31:3]` are ignored. -/
def State.writeCfg (v : Word) (s : State) : State :=
  { s with
    cfgIe := v.getLsbD 0
    cfgPairStrict := v.getLsbD 1
    cfgTailStrict := v.getLsbD 2 }

/-- The record that a Host access was ignored because a command is in progress (R23). -/
def State.setWerr (s : State) : State := { s with werr := true }

/-- The level-sensitive interrupt output (R32, R123, R126). -/
def State.irq (s : State) : Bool := s.done && s.cfgIe

end Sys2Proof.Machine
end

