-- ==== Sys2Proof/Machine/HostPort.lean ====
section
/-! DEFINITION. The Host port: which accesses are admitted (R42), what each register reads and does with a write (R18 to R31), and the two buffers (R46 to R49). -/

namespace Sys2Proof.Machine

/-- The registers of R18, and the reserved offsets of R31. -/
inductive Reg where
  | cmd
  | status
  | cfg
  | srcLen
  | dstLen
  | arg
  | result
  | errPos
  | reserved
deriving DecidableEq, Repr

/-- The register at an offset of the REG space (R18, R31, R42): none where the offset is misaligned or
above 0x3C. -/
def regAt (offset : Nat) : Option Reg :=
  if offset % 4 ≠ 0 ∨ 0x3C < offset then none
  else if offset = 0x00 then some .cmd
  else if offset = 0x04 then some .status
  else if offset = 0x08 then some .cfg
  else if offset = 0x0C then some .srcLen
  else if offset = 0x10 then some .dstLen
  else if offset = 0x14 then some .arg
  else if offset = 0x18 then some .result
  else if offset = 0x1C then some .errPos
  else some .reserved

/-- An admitted Host access (R42), with what it reads or writes. -/
inductive Admitted where
  | readReg (r : Reg)
  | writeReg (r : Reg) (v : Word)
  | readIn (i : Nat)
  | writeIn (i : Nat) (b : Byte)
  | readOut (i : Nat)
  | writeOut (i : Nat)
deriving DecidableEq, Repr

/-- The access forms of R42: none for every other access, which is refused.  The tables have no Host
access (R43). -/
def classify (c : Config) (a : HostAccess) : Option Admitted :=
  match a.space, a.dir with
  | .reg, .read => if a.width = 32 then (regAt a.index).map .readReg else none
  | .reg, .write v => if a.width = 32 then (regAt a.index).map (fun r => .writeReg r v) else none
  | .inBuf, .read => if a.width = 8 ∧ a.index < c.inCap then some (.readIn a.index) else none
  | .inBuf, .write v =>
    if a.width = 8 ∧ a.index < c.inCap then some (.writeIn a.index (v.setWidth 8)) else none
  | .outBuf, .read => if a.width = 8 ∧ a.index < c.outCap then some (.readOut a.index) else none
  | .outBuf, .write _ =>
    if a.width = 8 ∧ a.index < c.outCap then some (.writeOut a.index) else none
  | .alphaRom, _ => none
  | .ridxRom, _ => none

/-! ## Reads -/

/-- A Host read that returns a value the state holds: no side effect on the block (R50). -/
def State.answer (r : ReadData) (s : State) : State := { s with readData := r }

/-- A Host read that returns a `draw()`: no side effect on the block, one draw taken (R13, R46). -/
def State.answerDraw (r : ReadData) (s : State) : State :=
  { s with readData := r, draws := s.draws + 1 }

/-- A Host read of a result register: its value when idle, `draw()` while BUSY (R27, R29, R30, R49). -/
def State.readResult (held drawn : Word) (s : State) : State :=
  if s.busy then s.answerDraw (.word drawn) else s.answer (.word held)

/-- A Host read of a register (R18 to R31, R49).  Bits `[31:8]` of RESULT read 0 also while BUSY
(R29). -/
def State.readReg (r : Reg) (s : State) : State :=
  match r with
  | .cmd => s.answer (.word 0)
  | .status => s.answer (.word s.statusWord)
  | .cfg => s.answer (.word s.cfgWord)
  | .srcLen => s.answer (.word s.srcLen)
  | .dstLen => s.readResult s.dstLen (Config.drawWord s.draws)
  | .arg => s.answer (.word (s.arg.setWidth 32))
  | .result => s.readResult (s.result.setWidth 32) ((Config.drawByte s.draws).setWidth 32)
  | .errPos => s.readResult s.errPos (Config.drawWord s.draws)
  | .reserved => s.answer (.word 0)

/-- A Host read of one buffer byte: what it holds, or a draw for an unspecified byte (R46). -/
def State.readByte (held : Option Byte) (s : State) : State :=
  match held with
  | some b => s.answer (.byte b)
  | none => s.answerDraw (.byte (Config.drawByte s.draws))

/-- A Host read of OUT_BUF: while BUSY every byte reads as a draw (R49). -/
def State.readOut (i : Nat) (s : State) : State :=
  s.readByte (if s.busy then none else s.outBuf.read i)

/-! ## Writes -/

/-- A Host write to CMD: accept when idle (R37), ignored with WERR while BUSY (R38). -/
def State.writeCmd (v : Word) (s : State) : State :=
  if s.busy then s.setWerr else s.accept v

/-- A Host write to SRC_LEN (R26). -/
def State.writeSrcLen (v : Word) (s : State) : State := { s with srcLen := v }

/-- A Host write to ARG: bits `[31:8]` are ignored (R28). -/
def State.writeArg (v : Word) (s : State) : State := { s with arg := v.setWidth 8 }

/-- A Host write of a register (R18 to R31): the read-only registers and the reserved offsets ignore
it. -/
def State.writeReg (r : Reg) (v : Word) (s : State) : State :=
  match r with
  | .cmd => s.writeCmd v
  | .status => s.writeStatus v
  | .cfg => s.writeCfg v
  | .srcLen => s.writeSrcLen v
  | .dstLen => s
  | .arg => s.writeArg v
  | .result => s
  | .errPos => s
  | .reserved => s

/-- `IN_BUF[i] <- some b` (R46). -/
def State.storeIn (i : Nat) (b : Byte) (s : State) : State :=
  { s with inBuf := s.inBuf.write i b }

/-- A Host write of IN_BUF byte `i` (R46), ignored with WERR while BUSY (R48). -/
def State.writeIn (i : Nat) (b : Byte) (s : State) : State :=
  if s.busy then s.setWerr else s.storeIn i b

/-- A refused access (R36, R42): only the mark is set. -/
def State.refuse (s : State) : State := { s with refused := true }

/-- The effect of an admitted access.  A write of OUT_BUF is ignored and sets no WERR (R47). -/
def State.perform (a : Admitted) (s : State) : State :=
  match a with
  | .readReg r => s.readReg r
  | .writeReg r v => s.writeReg r v
  | .readIn i => s.readByte (s.inBuf.read i)
  | .writeIn i b => s.writeIn i b
  | .readOut i => s.readOut i
  | .writeOut _ => s

/-- One Host access: the Host's step (R15, R42). -/
def State.hostAccess (a : HostAccess) (s : State) : State :=
  match classify s.config a with
  | some adm => s.perform adm
  | none => s.refuse

end Sys2Proof.Machine
end

