-- ==== Sys2Proof/Machine/Engine.lean ====
section
/-! DEFINITION. The turns of the three agents (R15, R51): the Engine's completion with the dispatch of the latched word (R39, R60), the Host's access, and Reset. -/

namespace Sys2Proof.Machine

/-- The last arm of R60's dispatch: a reserved word completes with BAD_OPCODE (R116, R120). -/
def completeReserved (s : State) : Host.Outcome State Fault Refusal :=
  withLatch s fun _ => s.completeErr .badOpcode 0

/-- The dispatch of the latched command word (R60). -/
def execWord (w : Word) (s : State) : Host.Outcome State Fault Refusal :=
  match decode w with
  | .command i => exec i s
  | .reserved _ => completeReserved s

/-- The Engine's turn (R39): completion, enabled exactly when BUSY is 1.  With BUSY 0 the block is idle
and the turn changes nothing (log entry 6). -/
def engineStep (s : State) : Host.Outcome State Fault Refusal :=
  if s.busy then
    match s.latch with
    | some l => execWord l.op s
    | none => .fault .noCommandLatched
  else .next s

/-- One agent's turn (R15). -/
def takeTurn (t : Turn) (s : State) : Host.Outcome State Fault Refusal :=
  match t with
  | .host a => .next (s.hostAccess a)
  | .engine => engineStep s
  | .reset => .next s.resetAction

/-- The state once the first turn of the schedule has been taken off it. -/
def State.popTurn (s : State) : State := { s with schedule := s.schedule.tail }

/-- The schedule with the Engine's turn next.  With no turn scheduled the Engine's is next already
(log entry 4). -/
def engineNext : List Turn → List Turn
  | [] => []
  | t :: rest => .engine :: t :: rest

/-- The command word in the `nbits` bits of `w`, the bits above them zero. -/
def tableWord (nbits w : Nat) : Word := BitVec.ofNat 32 (w % 2 ^ nbits)

end Sys2Proof.Machine
end

