-- ==== Sys2Proof/Machine/Step.lean ====
section
/-! DEFINITION. One step of the machine: the next turn of the schedule, or the Engine's turn where no turn is scheduled (R40, R51); and how an instruction is put where the next step runs it. -/

namespace Sys2Proof.Machine

/-- One step.  The schedule says which agent moves (R51); where it is empty the Engine moves, so a
running command completes (R40, log entry 4). -/
def step (s : State) : Host.Outcome State Fault Refusal :=
  match s.schedule with
  | [] => engineStep s
  | t :: _ => takeTurn t s.popTurn

/-- `s` with the command word in the `nbits` bits of `w` accepted (R37), so that LATCH holds it, and the
Engine's turn next: the very next step completes exactly that command (log entry 5). -/
def State.withFetchWord (s : State) (nbits w : Nat) : State :=
  { s.accept (tableWord nbits w) with schedule := engineNext s.schedule }

end Sys2Proof.Machine
end

