-- ==== Sys2Proof/Machine/Datapath.lean ====
section
/-! DEFINITION. The reference datapaths of R90 and R105: shift-and-mask designs that compute `enc` and `dec` with a 20-bit accumulator.  They are not architectural (R34): no step uses them, and the state holds none of their registers. -/

namespace Sys2Proof.Machine

/-- ACC and NACC of R90 and R105.  RD and WR are the read position in the input list and the length of
the output list. -/
structure Accumulator where
  acc  : BitVec 20
  nacc : Nat
deriving DecidableEq, Repr

/-- ACC and NACC at the start. -/
def Accumulator.empty : Accumulator := { acc := 0, nacc := 0 }

/-- `ACC <- (ACC << n) | v ; NACC <- NACC + n`. -/
def Accumulator.load (n v : Nat) (r : Accumulator) : Accumulator :=
  { acc := (r.acc <<< n) ||| BitVec.ofNat 20 v, nacc := r.nacc + n }

/-- `ACC >> (NACC - n)`: the oldest `n` bits. -/
def Accumulator.top (n : Nat) (r : Accumulator) : Nat := (r.acc >>> (r.nacc - n)).toNat

/-- `NACC <- NACC - n ; ACC <- ACC & (2^NACC - 1)`. -/
def Accumulator.drop (n : Nat) (r : Accumulator) : Accumulator :=
  { acc := r.acc &&& BitVec.ofNat 20 (2 ^ (r.nacc - n) - 1), nacc := r.nacc - n }

/-- The stop of R90: the last 0 to 12 bits as no group, a single or a pair. -/
def Accumulator.flush (α : List Byte) (r : Accumulator) : List Byte :=
  if r.nacc = 0 then []
  else if r.nacc ≤ 6 then [symbolAt α (r.acc <<< (6 - r.nacc)).toNat]
  else pairSymbols α (r.acc <<< (13 - r.nacc)).toNat

/-- The loop of R90.  At its top NACC is at most 12, so a byte is loaded as long as one remains, and at
most one pair is emitted before the next. -/
def encLoop (α : List Byte) : Accumulator → List Byte → List Byte
  | r, [] => r.flush α
  | r, b :: rest =>
    if 13 ≤ (r.load 8 b.toNat).nacc then
      pairSymbols α ((r.load 8 b.toNat).top 13) ++ encLoop α ((r.load 8 b.toNat).drop 13) rest
    else encLoop α (r.load 8 b.toNat) rest

/-- The reference datapath of R90. -/
def encDatapath (α : List Byte) (B : List Byte) : List Byte := encLoop α .empty B

/-- `while NACC >= 8: emit a byte` of R105, at most `fuel` times. -/
def Accumulator.drain : Nat → Accumulator → List Byte × Accumulator
  | 0, r => ([], r)
  | fuel + 1, r =>
    if 8 ≤ r.nacc then
      let next := Accumulator.drain fuel (r.drop 8)
      (BitVec.ofNat 8 (r.top 8) :: next.1, next.2)
    else ([], r)

/-- Bytes put before what the rest of a decode gives. -/
def DecResult.prepend (O : List Byte) : DecResult → DecResult
  | .ok O' => .ok (O ++ O')
  | .err c pos => .err c pos

/-- The loop of R105 from position `pos`: NACC is at most 7 before each group, so at most two bytes are
emitted after it. -/
def decLoop (α : List Byte) (ps ts : Bool) : Nat → Accumulator → List Byte → DecResult
  | _, _, [] => .ok []
  | pos, r, [s] =>
    match decodeTail α ts pos s with
    | .err c p => .err c p
    | .bits A => .ok ((r.load 6 (val A)).drain 2).1
  | pos, r, s1 :: s2 :: rest =>
    match decodePair α ps pos s1 s2 with
    | .err c p => .err c p
    | .bits A =>
      (decLoop α ps ts (pos + 2) ((r.load 13 (val A)).drain 2).2 rest).prepend
        ((r.load 13 (val A)).drain 2).1

/-- The reference datapath of R105. -/
def decDatapath (α : List Byte) (S : List Byte) (ps ts : Bool) : DecResult :=
  decLoop α ps ts 0 .empty S

end Sys2Proof.Machine
end

