-- ==== Sys2Proof/Machine/TextAdapter.lean ====
section
/-! DEFINITION. The text adapter (R107 to R109) and the pseudo-commands with their expansions into Host accesses (R67, R68). -/

namespace Sys2Proof.Machine

/-- A text as this block takes it: one text unit is one byte (R107, D32). -/
abbrev Text := List Byte

/-- `as_bytes` of R107: an identity on the buffer bytes. -/
def asBytes (t : Text) : List Byte := t

/-- `as_text` of R107: an identity on the buffer bytes. -/
def asText (B : List Byte) : Text := B

/-- `encode_string` of R107. -/
def encodeString (α : List Byte) (t : Text) : Text := asText (enc α (asBytes t))

/-- The outcome of `decode_string` (R108): the decoded text, or the error of the decode. -/
def decodeString (α : List Byte) (t : Text) (ps ts : Bool) : DecResult :=
  match dec α (asBytes t) ps ts with
  | .ok O => .ok (asText O)
  | .err c pos => .err c pos

/-- `WR <REG>, <imm32>` of R67, by the register's offset. -/
def writeAccess (offset : Nat) (v : Word) : HostAccess :=
  { space := .reg, index := offset, width := 32, dir := .write v }

/-- `RD <REG>` of R67, by the register's offset. -/
def readAccess (offset : Nat) : HostAccess :=
  { space := .reg, index := offset, width := 32, dir := .read }

/-- `WB <i>, <imm8>` of R67. -/
def writeInAccess (i : Nat) (b : Byte) : HostAccess :=
  { space := .inBuf, index := i, width := 8, dir := .write (b.setWidth 32) }

/-- `RI <i>` of R67. -/
def readInAccess (i : Nat) : HostAccess :=
  { space := .inBuf, index := i, width := 8, dir := .read }

/-- `RB <i>` of R67. -/
def readOutAccess (i : Nat) : HostAccess :=
  { space := .outBuf, index := i, width := 8, dir := .read }

/-- `RUN <command>` of R68: one write of the command word to CMD. -/
def runAccess (i : Instr) : HostAccess := writeAccess 0x00 (encode i)

/-- The expansions of R68.  ENC_STR and DEC_STR add nothing to RUN ENC and RUN DEC (R107, R108). -/
def expandPseudo : Pseudo → List HostAccess
  | .runEnc => [runAccess .enc]
  | .runDec => [runAccess .dec]
  | .runSym => [runAccess .sym]
  | .runIdx => [runAccess .idx]
  | .encStr => [runAccess .enc]
  | .decStr => [runAccess .dec]
  | .poll again => List.replicate (again + 1) (readAccess 0x04)

end Sys2Proof.Machine
end

