-- ==== Sys2Proof/Safety.lean ====
section
/-! DEFINITION. What counts as a safe run: the invariant of the reachable states, and the premise REFUSED = false that a claim takes (R36). -/

namespace Sys2Proof.Machine

/-- What holds of the block at reset and after every step, in the spec's terms. -/
structure State.Inv (s : State) : Prop where
  /-- R7, R8: the parameters meet their constraints. -/
  config_wf : s.config.wf
  /-- R20: while BUSY is 1, LATCH is some value; while it is 0, LATCH is none. -/
  busy_iff_latched : s.busy = s.latch.isSome
  /-- R37, R140: between accept and completion, DONE, ERR and ERRCODE read 0. -/
  busy_clears_status : s.busy = true → s.done = false ∧ s.err = false ∧ s.errCode = 0
  /-- R22, R24: ERR says that ERRCODE is not 0. -/
  err_iff_code : s.err = true ↔ s.errCode ≠ 0
  /-- R117: ERRCODE 7 to 15 are never produced. -/
  code_le_six : s.errCode.toNat ≤ 6
  /-- R46: IN_BUF is in its canonical form. -/
  inBuf_wf : s.inBuf.wf
  /-- R43: IN_BUF holds bytes only at indices below IN_CAP. -/
  inBuf_bound : ∀ c ∈ s.inBuf, c.1 < s.config.inCap
  /-- R41, R47: the bytes OUT_BUF holds are the bytes 0 .. n-1 for some n. -/
  outBuf_prefix : s.outBuf.map Prod.fst = List.range s.outBuf.length
  /-- R43: OUT_BUF holds bytes only at indices below OUT_CAP. -/
  outBuf_bound : s.outBuf.length ≤ s.config.outCap
  /-- R27, R47: DST_LEN is that n, where 32 bits can hold it (log entry 9). -/
  dstLen_eq : s.outBuf.length < 2 ^ 32 → s.dstLen.toNat = s.outBuf.length
  /-- R30: once a command has completed, ERR_POS is 0 unless it ended in a symbol error of DEC. -/
  errPos_zero : s.busy = false → (s.errCode = 0 ∨ 4 ≤ s.errCode.toNat) → s.errPos = 0
  /-- R120, R142: after a failed ENC or DEC no byte of OUT_BUF is defined, and DST_LEN is 0. -/
  failed_output : 1 ≤ s.errCode.toNat → s.errCode.toNat ≤ 4 → s.outBuf = [] ∧ s.dstLen = 0
  /-- R115: after BAD_ARG, RESULT is 0. -/
  badArg_result : s.errCode = 5 → s.result = 0

/-- A state a claim may speak of: the invariant holds and no Host access was refused (R36). -/
def State.Safe (s : State) : Prop := s.Inv ∧ s.refused = false

/-- The input of the latched command, when the Host has written all of it (R61, R139): `B` has the latched
length and IN_BUF holds it from index 0. -/
def State.InputIs (s : State) (l : Latch) (B : List Byte) : Prop :=
  B.length = l.len.toNat ∧ ∀ i, i < B.length → s.inBuf.read i = B[i]?

/-- How many of the bytes of IN_BUF below index `n` hold no byte: each of them costs a command that reads
it one draw (R46, R53). -/
def State.unwritten (s : State) (n : Nat) : Nat :=
  (List.range n).countP (fun i => (s.inBuf.read i).isNone)

/-- The bytes a command that reads its input works on, written or not (R46, R53, R139): `S` has the latched
length, a byte the Host has written reads as written, and any other is the next draw.  That draws are
taken in index order is the model's choice (log entry 8). -/
def State.Fetches (s : State) (l : Latch) (S : List Byte) : Prop :=
  S.length = l.len.toNat ∧
  ∀ i, i < S.length →
    S[i]? = some ((s.inBuf.read i).getD (Config.drawByte (s.draws + s.unwritten i)))

/-- The command lifecycle after a completion (R39). -/
structure State.Completed (t : State) : Prop where
  busy : t.busy = false
  done : t.done = true
  latch : t.latch = none

/-- A successful completion (R39, R41): ERR, ERRCODE and ERR_POS are 0. -/
structure State.Succeeded (t : State) : Prop where
  completed : t.Completed
  err : t.err = false
  errCode : t.errCode = 0
  errPos : t.errPos = 0

/-- An error completion with a cause and a position (R39, R120). -/
structure State.Failed (c : ErrorCode) (pos : Nat) (t : State) : Prop where
  completed : t.Completed
  err : t.err = true
  errCode : t.errCode = c.code
  errPos : t.errPos.toNat = pos

/-- What no completion writes (R41, R48, R120): the live operand registers, WERR, every byte of IN_BUF,
REFUSED, and of the model's own fields the configuration, the read data and the schedule. -/
structure State.KeepsOthers (s t : State) : Prop where
  cfgIe : t.cfgIe = s.cfgIe
  cfgPairStrict : t.cfgPairStrict = s.cfgPairStrict
  cfgTailStrict : t.cfgTailStrict = s.cfgTailStrict
  srcLen : t.srcLen = s.srcLen
  arg : t.arg = s.arg
  werr : t.werr = s.werr
  inBuf : ∀ a, t.inBuf.read a = s.inBuf.read a
  refused : t.refused = s.refused
  config : t.config = s.config
  readData : t.readData = s.readData
  schedule : t.schedule = s.schedule

/-- What ENC and DEC leave unchanged (R41, R120): RESULT, and what no completion writes. -/
structure State.KeptByCodec (s t : State) : Prop where
  result : t.result = s.result
  others : s.KeepsOthers t

/-- What SYM, IDX and a reserved word leave unchanged, RESULT apart (R41, R47, R120): DST_LEN, every byte
of OUT_BUF, and what no completion writes.  They read no buffer, so no draw is taken. -/
structure State.KeptByLookup (s t : State) : Prop where
  dstLen : t.dstLen = s.dstLen
  outBuf : ∀ a, t.outBuf.read a = s.outBuf.read a
  draws : t.draws = s.draws
  others : s.KeepsOthers t

/-- The results of the last command (R52): what the Host may read once BUSY is 0. -/
structure State.SameResults (s t : State) : Prop where
  dstLen : t.dstLen = s.dstLen
  result : t.result = s.result
  errPos : t.errPos = s.errPos
  err : t.err = s.err
  errCode : t.errCode = s.errCode
  outBuf : ∀ a, t.outBuf.read a = s.outBuf.read a

/-- The whole state of R15 but REFUSED, compared field by field; of the model's own fields, the
configuration and the schedule. -/
structure State.SameBlock (s t : State) : Prop where
  cfgIe : t.cfgIe = s.cfgIe
  cfgPairStrict : t.cfgPairStrict = s.cfgPairStrict
  cfgTailStrict : t.cfgTailStrict = s.cfgTailStrict
  srcLen : t.srcLen = s.srcLen
  arg : t.arg = s.arg
  results : s.SameResults t
  busy : t.busy = s.busy
  done : t.done = s.done
  werr : t.werr = s.werr
  latch : t.latch = s.latch
  inBuf : ∀ a, t.inBuf.read a = s.inBuf.read a
  config : t.config = s.config
  schedule : t.schedule = s.schedule

/-- The next turn is the Engine's: it heads the schedule, or no turn is scheduled. -/
def State.EngineIsNext (s : State) : Prop :=
  s.schedule = [] ∨ ∃ rest, s.schedule = .engine :: rest

/-- The next turn is the Host's, with the access `a`. -/
def State.HostIsNext (a : HostAccess) (s : State) : Prop := ∃ rest, s.schedule = .host a :: rest

/-- The next turn is Reset's. -/
def State.ResetIsNext (s : State) : Prop := ∃ rest, s.schedule = .reset :: rest

/-- The next turn is a Host write to CMD (R19). -/
def State.CmdWriteIsNext (s : State) : Prop :=
  ∃ v, s.HostIsNext { space := .reg, index := 0x00, width := 32, dir := .write v }

/-- The next turn is a Host write to STATUS with bit `k` set (R21, R23). -/
def State.StatusClearIsNext (k : Nat) (s : State) : Prop :=
  ∃ v : Word, v.getLsbD k = true ∧
    s.HostIsNext { space := .reg, index := 0x04, width := 32, dir := .write v }

/-- The next turn is an admitted Host write to IN_BUF (R42, R48). -/
def State.InWriteIsNext (s : State) : Prop :=
  ∃ i v, i < s.config.inCap ∧
    s.HostIsNext { space := .inBuf, index := i, width := 8, dir := .write v }

/-- `n` steps from `s` reach `t`, none of them a fault or a refusal. -/
def runsTo (n : Nat) (s t : State) : Prop := Sys2Proof.core.run n s = .next t

end Sys2Proof.Machine
end

