-- ==== Sys2Proof/Certificates/Slice0/Obligations.lean ====
section
/-! DEFINITION. The statements for the provers, in the order of OBLIGATIONS.json: the command words, the alphabet mapper, the encoder, the decoder, what both do together, errors, the whole machine, the Host port and reset. -/

open Sys2Proof
open Sys2Proof.Machine

/-! ## Command words and the step -/

/-- R59: a word selects a command only if it equals the command's word exactly; every other word is
reserved and completes with BAD_OPCODE. -/
def Obligations.CommandWordsSelectExactly : Prop :=
  (∀ w : Word, decode w = .command .enc ↔ w = 0x00000001#32) ∧
  (∀ w : Word, decode w = .command .dec ↔ w = 0x00000002#32) ∧
  (∀ w : Word, decode w = .command .sym ↔ w = 0x00000003#32) ∧
  (∀ w : Word, decode w = .command .idx ↔ w = 0x00000004#32) ∧
  (∀ w : Word, w ≠ 0x00000001#32 → w ≠ 0x00000002#32 → w ≠ 0x00000003#32 → w ≠ 0x00000004#32 →
    (∃ why, decode w = .reserved why) ∧
    ∀ (s : State) (l : Latch), s.busy = true → s.latch = some l → l.op = w →
      ∃ t, engineStep s = .next t ∧ t.Failed .badOpcode 0)

/-- Decode and encode agree on every command, and the encoder's words are exactly the well-formed ones. -/
def Obligations.DecodeEncodeAgree : Prop :=
  (∀ i : Instr, i.wf = true →
    decode (encode i) = .command i ∧ CommandWord.wf (encode i) ∧
    ∀ w : Word, decode w = .command i → w = encode i) ∧
  (∀ w : Word, CommandWord.wf w → ∃ i : Instr, i.wf = true ∧ w = encode i)

/-- A few words written out bit by bit from the patterns of R58 and R59 decode as they should. -/
def Obligations.WrittenOutWordsDecode : Prop :=
  decode 0b00000000000000000000000000000001#32 = .command .enc ∧
  decode 0b00000000000000000000000000000010#32 = .command .dec ∧
  decode 0b00000000000000000000000000000011#32 = .command .sym ∧
  decode 0b00000000000000000000000000000100#32 = .command .idx ∧
  decode 0b00000000000000000000000000000000#32 = .reserved .unassignedOp ∧
  decode 0b00000000000000000000000000000101#32 = .reserved .unassignedOp ∧
  decode 0b00000000000000000000000000010001#32 = .reserved .zeroFieldSet

/-- The step runs the decoded command: when it is the Engine's turn and BUSY is 1, a step is `exec` of the
command that the latched word decodes to, at the state with the turn taken off the schedule. -/
def Obligations.StepRunsDecodedCommand : Prop :=
  ∀ (s : State) (l : Latch) (i : Instr), i.wf = true → s.EngineIsNext → s.busy = true →
    s.latch = some l → decode l.op = .command i →
    step s = exec i { s with schedule := s.schedule.tail }

/-- The turns of the schedule (the model's choice, log entry 4): each step takes the first turn, and a
turn of the Engine in an idle block changes nothing else (log entry 6). -/
def Obligations.StepTakesFirstTurn : Prop :=
  ∀ (s : State) (rest : List Turn),
    (∀ a, s.schedule = .host a :: rest →
      step s = .next (({ s with schedule := rest } : State).hostAccess a)) ∧
    (s.schedule = .reset :: rest →
      step s = .next ({ s with schedule := rest } : State).resetAction) ∧
    (s.schedule = .engine :: rest → s.busy = false →
      step s = .next { s with schedule := rest }) ∧
    (s.schedule = [] → s.busy = false → step s = .next s)

/-- R60: the dispatch by command word, with an outcome for every latched word. -/
def Obligations.DispatchIsTotal : Prop :=
  ∀ (s : State) (l : Latch), s.busy = true → s.latch = some l →
    (l.op = 0x00000001#32 → engineStep s = execEnc s) ∧
    (l.op = 0x00000002#32 → engineStep s = execDec s) ∧
    (l.op = 0x00000003#32 → engineStep s = execSym s) ∧
    (l.op = 0x00000004#32 → engineStep s = execIdx s) ∧
    (l.op ≠ 0x00000001#32 → l.op ≠ 0x00000002#32 → l.op ≠ 0x00000003#32 → l.op ≠ 0x00000004#32 →
      ∃ t, engineStep s = .next t ∧ t.Failed .badOpcode 0) ∧
    ∃ t, engineStep s = .next t ∧ t.Completed ∧ s.KeepsOthers t

/-! ## The alphabet mapper: SYM and IDX -/

/-- R72: the alphabet this hardware takes, by membership, by order and in closed form; and it meets the
constraints of R8. -/
def Obligations.HardwareAlphabetTable : Prop :=
  Config.hardware.alphabet = Config.r72Alphabet ∧ Alphabet.wf Config.r72Alphabet ∧
  (∀ b : Byte, b ∈ Config.r72Alphabet ↔
    0x21 ≤ b.toNat ∧ b.toNat ≤ 0x7D ∧ b ≠ 0x22#8 ∧ b ≠ 0x60#8) ∧
  Config.r72Alphabet.Pairwise (fun a b => a.toNat < b.toNat) ∧
  Config.r72Alphabet[0]? = some 0x21#8 ∧
  (∀ i, 1 ≤ i → i ≤ 61 → Config.r72Alphabet[i]? = some (BitVec.ofNat 8 (0x22 + i))) ∧
  (∀ i, 62 ≤ i → i ≤ 90 → Config.r72Alphabet[i]? = some (BitVec.ofNat 8 (0x23 + i)))

/-- R71, R73: the reverse table of every admissible alphabet, and its closed form under R72; and
`index_of` read from it, total, and invalid exactly off the alphabet: so for every byte outside
`[0x21, 0x7D]`, for 0x22, and for every non-ASCII byte. -/
def Obligations.ReverseTable : Prop :=
  (∀ (α : List Byte) (b : Byte), Alphabet.wf α →
    (∀ i, α[i]? = some b → ridxRom α b = BitVec.ofNat 8 i) ∧
    (b ∉ α → ridxRom α b = 0xFF#8) ∧
    ((∃ i, i ≤ 90 ∧ indexOf α b = some i ∧ α[i]? = some b) ∨ indexOf α b = none) ∧
    (indexOf α b = none ↔ b ∉ α) ∧
    (b.toNat < 0x21 ∨ 0x7D < b.toNat ∨ b = 0x22#8 → indexOf α b = none) ∧
    (0x80 ≤ b.toNat → indexOf α b = none)) ∧
  (∀ b : Byte,
    (b = 0x21#8 → ridxRom Config.r72Alphabet b = 0) ∧
    (0x23 ≤ b.toNat → b.toNat ≤ 0x5F →
      (ridxRom Config.r72Alphabet b).toNat = b.toNat - 0x22) ∧
    (0x61 ≤ b.toNat → b.toNat ≤ 0x7D →
      (ridxRom Config.r72Alphabet b).toNat = b.toNat - 0x23) ∧
    (b.toNat ≤ 0x20 ∨ b = 0x22#8 ∨ b = 0x60#8 ∨ 0x7E ≤ b.toNat →
      ridxRom Config.r72Alphabet b = 0xFF#8))

/-- R77: the alphabet is a bijection, in the functions and in the commands: SYM and then IDX of its
RESULT gives the index back. -/
def Obligations.AlphabetBijection : Prop :=
  (∀ (α : List Byte), Alphabet.wf α →
    (∀ i, i ≤ 90 → indexOf α (symbolAt α i) = some i) ∧
    (∀ (b : Byte) (i : Nat), indexOf α b = some i → symbolAt α i = b)) ∧
  (∀ (s t u : State) (l m : Latch), s.config.wf → s.latch = some l → l.arg.toNat ≤ 90 →
    exec .sym s = .next t → u.config = s.config → u.latch = some m → m.arg = t.result →
    ∃ v, exec .idx u = .next v ∧ v.result = l.arg)

/-- R76: SYM.  Its word, its latched operand, the symbol of an index up to 90, BAD_ARG above, and the
corner cases of the alphabet of R72. -/
def Obligations.SymLooksUpSymbol : Prop :=
  encode .sym = 0x00000003#32 ∧
  (∀ (s : State) (v : Word), ∃ l, (s.accept v).latch = some l ∧ l.arg = s.arg) ∧
  ∀ (s : State) (l : Latch), s.config.wf → s.latch = some l →
    (l.arg.toNat ≤ 90 →
      ∃ t, exec .sym s = .next t ∧ t.Succeeded ∧
        s.config.alphabet[l.arg.toNat]? = some t.result ∧ s.KeptByLookup t) ∧
    (90 < l.arg.toNat →
      ∃ t, exec .sym s = .next t ∧ t.Failed .badArg 0 ∧ t.result = 0 ∧ s.KeptByLookup t) ∧
    (s.config.alphabet = Config.r72Alphabet → ∃ t, exec .sym s = .next t ∧
      (l.arg = 0#8 → t.result = 0x21#8) ∧ (l.arg = 61#8 → t.result = 0x5F#8) ∧
      (l.arg = 62#8 → t.result = 0x61#8) ∧ (l.arg = 90#8 → t.result = 0x7D#8) ∧
      (l.arg = 91#8 → t.err = true ∧ t.errCode = 5))

/-- R78: IDX.  Its word, its latched operand, the index of a symbol or 0xFF, never an error, and the
corner cases of the alphabet of R72. -/
def Obligations.IdxLooksUpIndex : Prop :=
  encode .idx = 0x00000004#32 ∧
  (∀ (s : State) (v : Word), ∃ l, (s.accept v).latch = some l ∧ l.arg = s.arg) ∧
  ∀ (s : State) (l : Latch), s.config.wf → s.latch = some l →
    ∃ t, exec .idx s = .next t ∧ t.Succeeded ∧ s.KeptByLookup t ∧
      (∀ i, s.config.alphabet[i]? = some l.arg → t.result.toNat = i) ∧
      (l.arg ∉ s.config.alphabet → t.result = 0xFF#8) ∧
      (s.config.alphabet = Config.r72Alphabet →
        (l.arg = 0x21#8 → t.result = 0) ∧ (l.arg = 0x23#8 → t.result = 1) ∧
        (l.arg = 0x5F#8 → t.result = 61) ∧ (l.arg = 0x61#8 → t.result = 62) ∧
        (l.arg = 0x7D#8 → t.result = 90) ∧
        (l.arg ∈ [0x22#8, 0x60#8, 0x7E#8, 0x20#8, 0x00#8, 0x80#8, 0xFF#8] → t.result = 0xFF#8))

/-! ## The encoder: ENC -/

/-- R80 with R44: the bit sequence of a byte buffer, most significant bit of each byte first, bytes in
input order, nothing invented or dropped. -/
def Obligations.BitSequenceIsMsbFirst : Prop :=
  ∀ B : List Byte,
    (bitSequence B).length = 8 * B.length ∧
    ∀ p, p < 8 * B.length →
      (bitSequence B)[p]? = (B[p / 8]?).map (fun b => b.getMsbD (p % 8))

/-- R81: the chunks of a bit sequence are its bits in order, all of 13 bits but a final one of 1 to 12;
and every final length occurs. -/
def Obligations.ChunksCutTheSequence : Prop :=
  (∀ B : List Byte,
    ((List.range (8 * B.length / 13)).flatMap (fullChunk (bitSequence B)) ++
      finalChunk (bitSequence B) = bitSequence B) ∧
    (∀ j, j < 8 * B.length / 13 → (fullChunk (bitSequence B) j).length = 13 ∧
      fullChunk (bitSequence B) j = ((bitSequence B).drop (13 * j)).take 13) ∧
    (finalChunk (bitSequence B)).length = 8 * B.length % 13) ∧
  (∀ r, r < 13 → ∃ N : Nat, 8 * N % 13 = r)

/-- R82, R83, R84: the symbols of a chunk.  A full chunk and a final chunk of 7 to 12 bits give the two
symbols of a value up to 8191, with both indices in 0..90; a final chunk of 1 to 6 bits gives the one
symbol of a value up to 63.  Padding is on the right: it multiplies the value by a power of two. -/
def Obligations.ChunkSymbols : Prop :=
  ∀ (α : List Byte) (T : List Bool),
    (T.length = 13 → val T ≤ 8191 ∧ val T / 91 ≤ 90 ∧ val T % 91 ≤ 90 ∧
      encodeBits α T = [symbolAt α (val T / 91), symbolAt α (val T % 91)]) ∧
    (1 ≤ T.length → T.length ≤ 6 →
      val (T ++ zeros (6 - T.length)) = val T * 2 ^ (6 - T.length) ∧
      val T * 2 ^ (6 - T.length) ≤ 63 ∧
      encodeBits α T = [symbolAt α (val (T ++ zeros (6 - T.length)))]) ∧
    (7 ≤ T.length → T.length ≤ 12 →
      val (T ++ zeros (13 - T.length)) = val T * 2 ^ (13 - T.length) ∧
      val T * 2 ^ (13 - T.length) ≤ 8191 ∧
      encodeBits α T =
        [symbolAt α (val (T ++ zeros (13 - T.length)) / 91),
         symbolAt α (val (T ++ zeros (13 - T.length)) % 91)])

/-- R86: the output length of ENC, the same in closed form, its first values, its growth, and the law by
the remainder of `8·N` by 13. -/
def Obligations.EncodedLength : Prop :=
  (∀ (α B : List Byte), (enc α B).length = encLen B.length) ∧
  (∀ N, encLen N = (16 * N + 12) / 13) ∧
  (List.range 14).map encLen = [0, 2, 3, 4, 5, 7, 8, 9, 10, 12, 13, 14, 15, 16] ∧
  (∀ M N, M ≤ N → encLen M ≤ encLen N) ∧
  (∀ N, encLen (N + 13) = encLen N + 16) ∧
  (∀ (α B : List Byte),
    (8 * B.length % 13 = 0 → (enc α B).length = 2 * (8 * B.length / 13)) ∧
    (1 ≤ 8 * B.length % 13 → 8 * B.length % 13 ≤ 6 →
      (enc α B).length = 2 * (8 * B.length / 13) + 1) ∧
    (7 ≤ 8 * B.length % 13 → (enc α B).length = 2 * (8 * B.length / 13) + 2))

/-- R87, R93: empty input gives empty output, encoding and decoding, in the functions and in the commands;
an empty decode is told from a failure by ERR. -/
def Obligations.EmptyIdentities : Prop :=
  (∀ α : List Byte, enc α [] = []) ∧
  (∀ (α : List Byte) (ps ts : Bool), dec α [] ps ts = .ok []) ∧
  (∀ (s : State) (l : Latch), s.latch = some l → l.len = 0 →
    ∃ t, exec .enc s = .next t ∧ t.Succeeded ∧ t.dstLen = 0 ∧ ∀ a, t.outBuf.read a = none) ∧
  (∀ (s : State) (l : Latch), s.latch = some l → l.len = 0 →
    ∃ t, exec .dec s = .next t ∧ t.Succeeded ∧ t.dstLen = 0 ∧ ∀ a, t.outBuf.read a = none)

/-- ENC on an input the Host has written: OUT_BUF holds `enc` of it and nothing above, DST_LEN is its
length, and nothing else changes.  (Where the length does not fit in DST_LEN the spec states no value:
log entry 9.) -/
def Obligations.EncCompletesOnWrittenInput : Prop :=
  ∀ (s : State) (l : Latch) (B : List Byte), s.latch = some l → s.InputIs l B →
    l.len.toNat ≤ s.config.inCap → encLen l.len.toNat < 2 ^ 32 →
    ∃ t, exec .enc s = .next t ∧ t.Succeeded ∧
      (∀ a, t.outBuf.read a = (enc s.config.alphabet B)[a]?) ∧
      t.dstLen.toNat = encLen l.len.toNat ∧ t.draws = s.draws ∧ s.KeptByCodec t

/-- ENC on any input within IN_CAP, written or not: it succeeds, its output is `enc` of the bytes fetched,
has the stated length, fits in OUT_BUF and consists of symbols, whatever the unwritten bytes read as; and
each unwritten byte takes one draw, in index order (log entry 8). -/
def Obligations.EncCompletesOnAnyInput : Prop :=
  ∀ (s : State) (l : Latch), s.config.wf → s.latch = some l → l.len.toNat ≤ s.config.inCap →
    ∃ (t : State) (S O : List Byte), exec .enc s = .next t ∧ t.Succeeded ∧
      s.Fetches l S ∧ O = enc s.config.alphabet S ∧ O.length = encLen l.len.toNat ∧ O.length ≤ s.config.outCap ∧
      (∀ b ∈ O, b ∈ s.config.alphabet) ∧ (∀ a, t.outBuf.read a = O[a]?) ∧
      (encLen l.len.toNat < 2 ^ 32 → t.dstLen.toNat = encLen l.len.toNat ∧
        t.draws = s.draws + s.unwritten l.len.toNat) ∧ s.KeptByCodec t

/-- R79: every byte that ENC leaves in OUT_BUF and every RESULT of a successful SYM is a member of the
alphabet, so under R72 in `[0x21, 0x7D]` and neither 0x22 nor 0x60. -/
def Obligations.AlphabetClosure : Prop :=
  (∀ (s t : State), s.config.wf → exec .enc s = .next t →
    ∀ (a : Nat) (b : Byte), t.outBuf.read a = some b → b ∈ s.config.alphabet ∧
      (s.config.alphabet = Config.r72Alphabet →
        0x21 ≤ b.toNat ∧ b.toNat ≤ 0x7D ∧ b ≠ 0x22#8 ∧ b ≠ 0x60#8)) ∧
  (∀ (s t : State), s.config.wf → exec .sym s = .next t → t.err = false →
    t.result ∈ s.config.alphabet ∧
      (s.config.alphabet = Config.r72Alphabet →
        0x21 ≤ t.result.toNat ∧ t.result.toNat ≤ 0x7D ∧ t.result ≠ 0x22#8 ∧ t.result ≠ 0x60#8))

/-- R89: what ENC emits is canonical.  Each pair's indices combine to its chunk's value, at most 8191, the
single's index is its value, at most 63, and no decode of the output meets an overflow. -/
def Obligations.EncodedPairsAreCanonical : Prop :=
  ∀ (α B : List Byte), Alphabet.wf α →
    (∀ j, j < 8 * B.length / 13 → ∃ s1 s2 i1 i2,
      (enc α B)[2 * j]? = some s1 ∧ (enc α B)[2 * j + 1]? = some s2 ∧
      indexOf α s1 = some i1 ∧ indexOf α s2 = some i2 ∧
      i1 * 91 + i2 = val (fullChunk (bitSequence B) j) ∧ i1 * 91 + i2 ≤ 8191) ∧
    (7 ≤ 8 * B.length % 13 → ∃ s1 s2 i1 i2,
      (enc α B)[2 * (8 * B.length / 13)]? = some s1 ∧
      (enc α B)[2 * (8 * B.length / 13) + 1]? = some s2 ∧
      indexOf α s1 = some i1 ∧ indexOf α s2 = some i2 ∧
      i1 * 91 + i2 = val (finalChunk (bitSequence B) ++ zeros (13 - 8 * B.length % 13)) ∧
      i1 * 91 + i2 ≤ 8191) ∧
    (1 ≤ 8 * B.length % 13 → 8 * B.length % 13 ≤ 6 → ∃ s1 i1,
      (enc α B)[2 * (8 * B.length / 13)]? = some s1 ∧ indexOf α s1 = some i1 ∧
      i1 = val (finalChunk (bitSequence B) ++ zeros (6 - 8 * B.length % 13)) ∧ i1 ≤ 63) ∧
    (∀ ps ts pos, dec α (enc α B) ps ts ≠ .err .pairOverflow pos ∧
      dec α (enc α B) ps ts ≠ .err .tailOverflow pos)

/-- The reference datapath of R90, with its 20-bit accumulator, computes `enc`.  No step uses it, and the
form of its loop, a function over the input list, is the model's (log entry 21). -/
def Obligations.EncDatapathRefinesEnc : Prop :=
  ∀ α B : List Byte, encDatapath α B = enc α B

/-! ## The decoder: DEC -/

/-- R94, R95, R96, R98: the pair after a prefix `P` of whole pairs that decodes without error.  First
symbol, then second symbol, then the strict check; otherwise its 13 bits follow the bits of `P`.  The
overflow happens exactly for `i1 = 90` and `i2 >= 2`, and truncation leaves a value in `[0, 88]`. -/
def Obligations.PairIsScannedInOrder : Prop :=
  ∀ (α P rest : List Byte) (A : List Bool) (s1 s2 : Byte) (ps ts : Bool) (j : Nat),
    Alphabet.wf α → P.length = 2 * j → scanSymbols α ps ts 0 P = .bits A →
    (indexOf α s1 = none →
      dec α (P ++ s1 :: s2 :: rest) ps ts = .err .invalidSymbol (2 * j)) ∧
    (∀ i1, indexOf α s1 = some i1 → indexOf α s2 = none →
      dec α (P ++ s1 :: s2 :: rest) ps ts = .err .invalidSymbol (2 * j + 1)) ∧
    (∀ i1 i2, indexOf α s1 = some i1 → indexOf α s2 = some i2 →
      i1 * 91 + i2 ≤ 8280 ∧
      (8191 < i1 * 91 + i2 ↔ i1 = 90 ∧ 2 ≤ i2) ∧
      (8191 < i1 * 91 + i2 → ps = true →
        dec α (P ++ s1 :: s2 :: rest) ps ts = .err .pairOverflow (2 * j)) ∧
      (8191 < i1 * 91 + i2 → ps = false → i1 * 91 + i2 - 8192 ≤ 88 ∧
        scanSymbols α ps ts 0 (P ++ [s1, s2]) = .bits (A ++ bitsN 13 (i1 * 91 + i2 - 8192))) ∧
      (i1 * 91 + i2 ≤ 8191 →
        scanSymbols α ps ts 0 (P ++ [s1, s2]) = .bits (A ++ bitsN 13 (i1 * 91 + i2))))

/-- R97, R99: the odd tail after a prefix `P` of whole pairs that decodes without error.  Validity, then
the strict check; otherwise its low-order six bits follow the bits of `P`. -/
def Obligations.TailIsScannedLast : Prop :=
  ∀ (α P : List Byte) (A : List Bool) (c : Byte) (ps ts : Bool) (j : Nat),
    Alphabet.wf α → P.length = 2 * j → scanSymbols α ps ts 0 P = .bits A →
    (indexOf α c = none → dec α (P ++ [c]) ps ts = .err .invalidSymbol (2 * j)) ∧
    (∀ i, indexOf α c = some i →
      (63 < i → ts = true → dec α (P ++ [c]) ps ts = .err .tailOverflow (2 * j)) ∧
      (63 < i → ts = false →
        scanSymbols α ps ts 0 (P ++ [c]) = .bits (A ++ bitsN 6 (i - 64))) ∧
      (i ≤ 63 → scanSymbols α ps ts 0 (P ++ [c]) = .bits (A ++ bitsN 6 i)))

/-- R101: regrouping cuts bytes from the left and discards a trailing group of fewer than eight bits,
whatever its values. -/
def Obligations.RegroupDiscardsShortTail : Prop :=
  ∀ (B : List Byte) (R : List Bool), R.length < 8 → regroup (bitSequence B ++ R) = B

/-- R103: the output length of a successful decode, its first values, and that it fits. -/
def Obligations.DecodedLength : Prop :=
  (∀ (α S O : List Byte) (ps ts : Bool), dec α S ps ts = .ok O → O.length = decLen S.length) ∧
  (List.range 17).map decLen = [0, 0, 1, 2, 3, 4, 4, 5, 6, 7, 8, 8, 9, 10, 11, 12, 13] ∧
  (∀ M, decLen M ≤ M) ∧
  (∀ c : Config, c.wf → ∀ M, M ≤ c.inCap → decLen M ≤ c.outCap) ∧
  (∀ N, decLen (encLen N) = N)

/-- With both strict bits 0 a decode fails only on a byte that is no symbol: every list of symbols
decodes, and nothing else does. -/
def Obligations.SymbolsDecodeUnderResetConfig : Prop :=
  ∀ (α S : List Byte), Alphabet.wf α →
    ((∀ b ∈ S, b ∈ α) ↔ ∃ O, dec α S false false = .ok O)

/-- DEC on an input that decodes: OUT_BUF holds the decoded bytes and nothing above, DST_LEN is their
number, and nothing else changes.  First for an input the Host has written, then for the bytes fetched,
written or not: there is always exactly one such list, and each unwritten byte takes one draw, in index
order (log entry 8). -/
def Obligations.DecCompletesOnValidInput : Prop :=
  (∀ (s : State) (l : Latch) (S O : List Byte), s.latch = some l → s.InputIs l S →
    l.len.toNat ≤ s.config.inCap → dec s.config.alphabet S l.ps l.ts = .ok O →
    ∃ t, exec .dec s = .next t ∧ t.Succeeded ∧
      (∀ a, t.outBuf.read a = O[a]?) ∧ t.dstLen.toNat = decLen l.len.toNat ∧
      t.draws = s.draws ∧ s.KeptByCodec t) ∧
  (∀ (s : State) (l : Latch) (S O : List Byte), s.latch = some l → s.Fetches l S →
    l.len.toNat ≤ s.config.inCap → dec s.config.alphabet S l.ps l.ts = .ok O →
    ∃ t, exec .dec s = .next t ∧ t.Succeeded ∧
      (∀ a, t.outBuf.read a = O[a]?) ∧ t.dstLen.toNat = decLen l.len.toNat ∧
      t.draws = s.draws + s.unwritten l.len.toNat ∧ s.KeptByCodec t) ∧
  (∀ (s : State) (l : Latch), ∃ S, s.Fetches l S ∧ ∀ S', s.Fetches l S' → S' = S)

/-- DEC on an input that does not decode: the cause and its position are reported, DST_LEN is 0, every
byte of OUT_BUF is unspecified, and nothing else changes.  First for an input the Host has written, then
for the bytes fetched, written or not, each unwritten byte taking one draw, in index order (log entry
8). -/
def Obligations.DecReportsFirstError : Prop :=
  (∀ (s : State) (l : Latch) (S : List Byte) (c : ErrorCode) (pos : Nat),
    s.latch = some l → s.InputIs l S → l.len.toNat ≤ s.config.inCap →
    dec s.config.alphabet S l.ps l.ts = .err c pos →
    ∃ t, exec .dec s = .next t ∧ t.Failed c pos ∧ t.dstLen = 0 ∧
      (∀ a, t.outBuf.read a = none) ∧ t.draws = s.draws ∧ s.KeptByCodec t) ∧
  (∀ (s : State) (l : Latch) (S : List Byte) (c : ErrorCode) (pos : Nat),
    s.latch = some l → s.Fetches l S → l.len.toNat ≤ s.config.inCap →
    dec s.config.alphabet S l.ps l.ts = .err c pos →
    ∃ t, exec .dec s = .next t ∧ t.Failed c pos ∧ t.dstLen = 0 ∧
      (∀ a, t.outBuf.read a = none) ∧
      t.draws = s.draws + s.unwritten l.len.toNat ∧ s.KeptByCodec t)

/-- R106: a DEC over an invalid byte always fails, with DST_LEN 0.  With PAIR_STRICT 0 the code of an
in-range DEC is INVALID_SYMBOL; with it 1 a pair overflow may come first; a tail overflow never does. -/
def Obligations.InvalidSymbolIsRejected : Prop :=
  ∀ (s : State) (l : Latch) (a : Nat) (b : Byte), s.config.wf → s.latch = some l →
    a < l.len.toNat → s.inBuf.read a = some b →
    (b.toNat < 0x21 ∨ 0x7D < b.toNat ∨ b = 0x22#8 ∨ b = 0x7E#8 ∨
      (s.config.alphabet = Config.r72Alphabet ∧ b = 0x60#8)) →
    ∃ t, exec .dec s = .next t ∧ t.err = true ∧ t.dstLen = 0 ∧
      (l.len.toNat ≤ s.config.inCap → l.ps = false → t.errCode = 1) ∧
      (l.len.toNat ≤ s.config.inCap → l.ps = true → t.errCode = 1 ∨ t.errCode = 2) ∧
      t.errCode ≠ 3

/-- The reference datapath of R105, with its 20-bit accumulator, computes `dec`.  No step uses it, and the
form of its loop, a function over the input list, is the model's (log entry 21). -/
def Obligations.DecDatapathRefinesDec : Prop :=
  ∀ (α S : List Byte) (ps ts : Bool), decDatapath α S ps ts = dec α S ps ts

/-! ## Encode, then decode -/

/-- The round trip of the functions: for every admissible alphabet, every input and both strict bits. -/
def Obligations.RoundTrip : Prop :=
  ∀ (α B : List Byte) (ps ts : Bool), Alphabet.wf α → dec α (enc α B) ps ts = .ok B

/-- R92: encode is injective, decode is not. -/
def Obligations.EncodeIsInjective : Prop :=
  (∀ (α B C : List Byte), Alphabet.wf α → enc α B = enc α C → B = C) ∧
  (∀ ps ts, ∃ S T O : List Byte, S ≠ T ∧ dec Config.r72Alphabet S ps ts = .ok O ∧
    dec Config.r72Alphabet T ps ts = .ok O)

/-- The round trip through the block: ENC of a written input, every defined byte of OUT_BUF copied to the
same index of IN_BUF, then DEC with SRC_LEN = DST_LEN, leaves the input in OUT_BUF with its length in
DST_LEN and ERR 0. -/
def Obligations.RoundTripThroughTheBlock : Prop :=
  ∀ (s t u : State) (l m : Latch) (B : List Byte), s.config.wf →
    s.latch = some l → s.InputIs l B → l.len.toNat ≤ s.config.inCap → exec .enc s = .next t →
    u.config = s.config → u.latch = some m → m.len = t.dstLen →
    (∀ a b, t.outBuf.read a = some b → u.inBuf.read a = some b) →
    (∀ a b, u.inBuf.read a = some b → a < u.config.inCap) →
    ∃ v, exec .dec u = .next v ∧ v.Succeeded ∧ (∀ a, v.outBuf.read a = B[a]?) ∧
      v.dstLen.toNat = B.length

/-- R107, R108: the text adapter adds nothing to the codec, and its pseudo-commands are RUN ENC and
RUN DEC, one write of the command word to CMD. -/
def Obligations.TextAdapterIsReinterpretation : Prop :=
  (∀ α t : List Byte, encodeString α t = enc α t) ∧
  (∀ (α t : List Byte) (ps ts : Bool), decodeString α t ps ts = dec α t ps ts) ∧
  expandPseudo .encStr = [writeAccess 0x00 0x00000001#32] ∧
  expandPseudo .decStr = [writeAccess 0x00 0x00000002#32] ∧
  (∀ α : List Byte, encodeString α [] = []) ∧
  (∀ (α : List Byte) (ps ts : Bool), decodeString α [] ps ts = .ok []) ∧
  encodeString Config.r72Alphabet [0x41#8] = [0x38#8, 0x71#8] ∧
  (∀ ps ts, decodeString Config.r72Alphabet [0x38#8, 0x71#8] ps ts = .ok [0x41#8])

/-! ## Errors -/

/-- R111, R112, R113: the three symbol errors are raised by DEC only, and ERR_POS points at the cause. -/
def Obligations.SymbolErrorsPointAtCause : Prop :=
  ∀ (s t : State) (l : Latch), s.busy = true → s.latch = some l → engineStep s = .next t →
    (t.errCode = 1 → l.op = encode .dec ∧
      ∃ b, (s.input l)[t.errPos.toNat]? = some b ∧ indexOf s.config.alphabet b = none) ∧
    (t.errCode = 2 → l.op = encode .dec ∧ l.ps = true ∧
      ∃ s1 s2 i1 i2, t.errPos.toNat % 2 = 0 ∧
        (s.input l)[t.errPos.toNat]? = some s1 ∧ (s.input l)[t.errPos.toNat + 1]? = some s2 ∧
        indexOf s.config.alphabet s1 = some i1 ∧ indexOf s.config.alphabet s2 = some i2 ∧
        8191 < i1 * 91 + i2) ∧
    (t.errCode = 3 → l.op = encode .dec ∧ l.ts = true ∧ l.len.toNat % 2 = 1 ∧
      t.errPos.toNat = l.len.toNat - 1 ∧
      ∃ b i, (s.input l)[t.errPos.toNat]? = some b ∧ indexOf s.config.alphabet b = some i ∧
        63 < i)

/-- R114: BAD_LENGTH is raised by ENC and DEC exactly on a length above IN_CAP, before any IN_BUF read:
the outcome is the same whatever IN_BUF holds, and no draw is taken. -/
def Obligations.BadLengthBeforeAnyRead : Prop :=
  ∀ (s : State) (l : Latch), s.latch = some l →
    (s.config.inCap < l.len.toNat → ∀ i : Instr, i = .enc ∨ i = .dec →
      ∃ t, exec i s = .next t ∧ t.Failed .badLength 0 ∧ t.dstLen = 0 ∧
        (∀ a, t.outBuf.read a = none) ∧ t.draws = s.draws ∧ s.KeptByCodec t ∧
        ∀ m : Memory, exec i { s with inBuf := m } = .next { t with inBuf := m }) ∧
    (s.busy = true → ∀ t, engineStep s = .next t → t.errCode = 4 →
      (l.op = encode .enc ∨ l.op = encode .dec) ∧ s.config.inCap < l.len.toNat)

/-- R118: the errors each command can raise. -/
def Obligations.ErrorsOfEachCommand : Prop :=
  ∀ (s t : State) (l : Latch), s.latch = some l →
    (exec .enc s = .next t → t.err = true → t.errCode = 4) ∧
    (exec .dec s = .next t → t.err = true →
      t.errCode = 4 ∨ t.errCode = 1 ∨ (t.errCode = 2 ∧ l.ps = true) ∨
        (t.errCode = 3 ∧ l.ts = true)) ∧
    (exec .sym s = .next t → t.err = true → t.errCode = 5) ∧
    (exec .idx s = .next t → t.err = false ∧ t.errCode = 0) ∧
    (s.busy = true → (∀ i : Instr, l.op ≠ encode i) → engineStep s = .next t →
      t.err = true ∧ t.errCode = 6)

/-- R120: what an error completion writes, for every command and cause; nothing else changes. -/
def Obligations.ErrorWriteBack : Prop :=
  ∀ (s t : State) (l : Latch), s.busy = true → s.latch = some l → engineStep s = .next t →
    t.err = true →
    t.Completed ∧ s.KeepsOthers t ∧
    (t.errCode = 1 ∨ t.errCode = 2 ∨ t.errCode = 3 →
      ∃ c pos, dec s.config.alphabet (s.input l) l.ps l.ts = .err c pos ∧
        t.errCode = c.code ∧ t.errPos.toNat = pos) ∧
    (t.errCode = 4 ∨ t.errCode = 5 ∨ t.errCode = 6 → t.errPos = 0) ∧
    (t.errCode = 1 ∨ t.errCode = 2 ∨ t.errCode = 3 ∨ t.errCode = 4 →
      t.dstLen = 0 ∧ (∀ a, t.outBuf.read a = none) ∧ t.result = s.result) ∧
    (t.errCode = 5 → t.result = 0 ∧ t.dstLen = s.dstLen ∧
      ∀ a, t.outBuf.read a = s.outBuf.read a) ∧
    (t.errCode = 6 → t.result = s.result ∧ t.dstLen = s.dstLen ∧
      ∀ a, t.outBuf.read a = s.outBuf.read a)

/-! ## The whole machine -/

/-- The state after reset meets the invariant.  (The configuration it carries is the model's choice where
R7 leaves it open: log entry 2.) -/
def Obligations.InvariantHoldsAtReset : Prop := State.reset.Inv ∧ State.reset.refused = false

/-- From every state that meets the invariant a step answers a next state, no fault and no refusal, and
that state meets the invariant. -/
def Obligations.StepKeepsInvariant : Prop :=
  ∀ s : State, s.Inv → ∃ t, step s = .next t ∧ t.Inv

/-- A running command ends within as many steps as there are turns scheduled, and one more.  (The bound
is of the model's schedule, log entry 4; the spec gives none.) -/
def Obligations.RunningCommandEnds : Prop :=
  ∀ s : State, s.Inv → s.busy = true →
    ∃ (k : Nat) (t : State), k ≤ s.schedule.length + 1 ∧ runsTo k s t ∧ t.busy = false

/-- The configuration never changes, and each step takes one turn off the schedule. -/
def Obligations.ConfigurationIsFixed : Prop :=
  ∀ s t : State, step s = .next t → t.config = s.config ∧ t.schedule = s.schedule.tail

/-- R20: what sets and clears BUSY; and LATCH is some value exactly while it is 1. -/
def Obligations.BusyFollowsAcceptAndCompletion : Prop :=
  (∀ s t : State, step s = .next t →
    (t.busy = true ↔
      (s.busy = false ∧ s.CmdWriteIsNext) ∨
      (s.busy = true ∧ ¬ s.EngineIsNext ∧ ¬ s.ResetIsNext))) ∧
  (∀ s t : State, s.busy = s.latch.isSome → step s = .next t → t.busy = t.latch.isSome) ∧
  State.reset.busy = false

/-- R21: what sets and clears DONE. -/
def Obligations.DoneFollowsCompletion : Prop :=
  (∀ s t : State, step s = .next t →
    (t.done = true ↔
      (s.busy = true ∧ s.EngineIsNext) ∨
      (s.done = true ∧ ¬ s.StatusClearIsNext 1 ∧ ¬ s.ResetIsNext ∧
        ¬ (s.busy = false ∧ s.CmdWriteIsNext)))) ∧
  State.reset.done = false

/-- R23: WERR is set by each access ignored while a command is in progress, and cleared only by a write
of 1 to bit 3 or by reset. -/
def Obligations.WerrRecordsIgnoredAccess : Prop :=
  (∀ s t : State, step s = .next t →
    (t.werr = true ↔
      (s.busy = true ∧ (s.CmdWriteIsNext ∨ s.InWriteIsNext)) ∨
      (s.werr = true ∧ ¬ s.StatusClearIsNext 3 ∧ ¬ s.ResetIsNext))) ∧
  State.reset.werr = false

/-- The results of a command are those of its latched operands and its input bytes: two states that agree
on these agree on every result, whatever else differs. -/
def Obligations.ResultsDependOnLatchAndInput : Prop :=
  ∀ (i : Instr) (s s' t : State) (l : Latch), s.latch = some l → s'.latch = some l →
    s'.config = s.config → s'.draws = s.draws →
    (∀ a, a < l.len.toNat → s'.inBuf.read a = s.inBuf.read a) → exec i s = .next t →
    ∃ t', exec i s' = .next t' ∧ t'.err = t.err ∧ t'.errCode = t.errCode ∧
      t'.errPos = t.errPos ∧ t'.draws = t.draws ∧
      (i = .enc ∨ i = .dec → t'.dstLen = t.dstLen ∧ ∀ a, t'.outBuf.read a = t.outBuf.read a) ∧
      (i = .sym ∨ i = .idx → t'.result = t.result)

/-- The results of a completed command stay until the next accept or reset. -/
def Obligations.ResultsStayUntilNextAccept : Prop :=
  ∀ s t : State, s.busy = false → ¬ s.CmdWriteIsNext → ¬ s.ResetIsNext → step s = .next t →
    s.SameResults t

/-! ## The Host port -/

/-- R42: exactly these access forms are admitted, and any other access sets REFUSED. -/
def Obligations.AdmittedAccessForms : Prop :=
  ∀ (s : State) (a : HostAccess),
    (classify s.config a ≠ none ↔
      (a.space = .reg ∧ a.width = 32 ∧ a.index % 4 = 0 ∧ a.index ≤ 0x3C) ∨
      (a.space = .inBuf ∧ a.width = 8 ∧ a.index < s.config.inCap) ∨
      (a.space = .outBuf ∧ a.width = 8 ∧ a.index < s.config.outCap)) ∧
    (classify s.config a = none → s.hostAccess a = { s with refused := true })

/-- R36: REFUSED is set by a refused access, which does nothing else, and no step clears it. -/
def Obligations.RefusedIsSticky : Prop :=
  ∀ s t : State, step s = .next t →
    (t.refused = true ↔
      s.refused = true ∨ ∃ a, s.HostIsNext a ∧ classify s.config a = none) ∧
    (∀ a, s.HostIsNext a → classify s.config a = none →
      t = { s with schedule := s.schedule.tail, refused := true })

/-- R37, R38: a write to CMD.  While BUSY is 0 every command word is accepted, DONE or not, and a reserved
word then completes with BAD_OPCODE; while it is 1 the write sets WERR and changes nothing else. -/
def Obligations.CommandWriteAcceptsOrIsIgnored : Prop :=
  ∀ (s : State) (v : Word),
    (s.busy = true → s.hostAccess (writeAccess 0x00 v) = { s with werr := true }) ∧
    (s.busy = false → s.hostAccess (writeAccess 0x00 v) =
      { s with
        latch := some { op := v, len := s.srcLen, arg := s.arg,
                        ps := s.cfgPairStrict, ts := s.cfgTailStrict }
        busy := true
        done := false
        err := false
        errCode := 0 }) ∧
    (s.busy = false → (∀ i : Instr, v ≠ encode i) →
      ∃ t, engineStep (s.hostAccess (writeAccess 0x00 v)) = .next t ∧ t.Failed .badOpcode 0)

/-- R48: an IN_BUF write while BUSY is 1 is ignored and sets WERR, so IN_BUF is constant from accept to
completion, and no completion changes it. -/
def Obligations.InputIsConstantWhileBusy : Prop :=
  (∀ (s : State) (i : Nat) (b : Byte), s.busy = true → i < s.config.inCap →
    s.hostAccess (writeInAccess i b) = { s with werr := true }) ∧
  (∀ s t : State, s.busy = true → ¬ s.ResetIsNext → step s = .next t →
    ∀ a, t.inBuf.read a = s.inBuf.read a)

/-- A byte written to IN_BUF while idle reads back, every other byte of IN_BUF reads as before, and
nothing else of the block changes; a byte that holds none reads as a fresh draw. -/
def Obligations.InputWriteReadsBack : Prop :=
  ∀ (s : State) (i : Nat) (b : Byte), s.busy = false → i < s.config.inCap →
    (∀ a, (s.hostAccess (writeInAccess i b)).inBuf.read a =
      if a = i then some b else s.inBuf.read a) ∧
    s.hostAccess (writeInAccess i b) =
      { s with inBuf := (s.hostAccess (writeInAccess i b)).inBuf } ∧
    ((s.hostAccess (writeInAccess i b)).hostAccess (readInAccess i)).readData = .byte b ∧
    (s.inBuf.read i = none →
      (s.hostAccess (readInAccess i)).readData = .byte (Config.drawByte s.draws) ∧
      (s.hostAccess (readInAccess i)).draws = s.draws + 1)

/-- R47: only a completion or reset changes OUT_BUF; a Host write to it is ignored and sets no WERR; bytes
at or above DST_LEN hold none after ENC or DEC (where DST_LEN can hold the length, log entry 9); SYM, IDX
and BAD_OPCODE leave it unchanged. -/
def Obligations.OutputWrittenOnlyByCompletion : Prop :=
  (∀ s t : State, ¬ (s.busy = true ∧ s.EngineIsNext) → ¬ s.ResetIsNext → step s = .next t →
    ∀ a, t.outBuf.read a = s.outBuf.read a) ∧
  (∀ (s : State) (i : Nat) (v : Word), i < s.config.outCap →
    s.hostAccess { space := .outBuf, index := i, width := 8, dir := .write v } = s) ∧
  (∀ (s t : State) (l : Latch) (i : Instr), i = .enc ∨ i = .dec → s.latch = some l →
    encLen l.len.toNat < 2 ^ 32 → exec i s = .next t →
    ∀ a, t.dstLen.toNat ≤ a → t.outBuf.read a = none) ∧
  (∀ (s t : State) (i : Instr), i = .sym ∨ i = .idx → exec i s = .next t →
    ∀ a, t.outBuf.read a = s.outBuf.read a) ∧
  (∀ (s t : State) (l : Latch), s.busy = true → s.latch = some l →
    (∀ i : Instr, l.op ≠ encode i) → engineStep s = .next t →
    ∀ a, t.outBuf.read a = s.outBuf.read a)

/-- R49: Host reads while BUSY is 1.  The registers and buffer named return their current values, STATUS
and CFG bit by bit, with STATUS[0] reading 1; the results, OUT_BUF and the bytes of IN_BUF that hold none
return draws. -/
def Obligations.ReadsWhileBusy : Prop :=
  ∀ s : State, s.busy = true →
    (∃ st : Word, (s.hostAccess (readAccess 0x04)).readData = .word st ∧
      st.getLsbD 0 = true ∧ st.getLsbD 1 = s.done ∧ st.getLsbD 2 = s.err ∧
      st.getLsbD 3 = s.werr ∧ st.extractLsb' 4 4 = 0#4 ∧ st.extractLsb' 8 4 = s.errCode ∧
      st.extractLsb' 12 20 = 0#20) ∧
    (∃ cf : Word, (s.hostAccess (readAccess 0x08)).readData = .word cf ∧
      cf.getLsbD 0 = s.cfgIe ∧ cf.getLsbD 1 = s.cfgPairStrict ∧ cf.getLsbD 2 = s.cfgTailStrict ∧
      cf.extractLsb' 3 29 = 0#29) ∧
    (s.hostAccess (readAccess 0x0C)).readData = .word s.srcLen ∧
    (s.hostAccess (readAccess 0x14)).readData = .word (s.arg.setWidth 32) ∧
    (s.hostAccess (readAccess 0x00)).readData = .word 0 ∧
    (∀ k, k < 8 → (s.hostAccess (readAccess (0x20 + 4 * k))).readData = .word 0) ∧
    (∀ i b, i < s.config.inCap → s.inBuf.read i = some b →
      (s.hostAccess (readInAccess i)).readData = .byte b) ∧
    (∀ i, i < s.config.inCap → s.inBuf.read i = none →
      (s.hostAccess (readInAccess i)).readData = .byte (Config.drawByte s.draws) ∧
      (s.hostAccess (readInAccess i)).draws = s.draws + 1) ∧
    (∀ offset, offset = 0x10 ∨ offset = 0x1C →
      (s.hostAccess (readAccess offset)).readData = .word (Config.drawWord s.draws) ∧
      (s.hostAccess (readAccess offset)).draws = s.draws + 1) ∧
    (s.hostAccess (readAccess 0x18)).readData =
      .word ((Config.drawByte s.draws).setWidth 32) ∧
    (s.hostAccess (readAccess 0x18)).draws = s.draws + 1 ∧
    (∀ i, i < s.config.outCap →
      (s.hostAccess (readOutAccess i)).readData = .byte (Config.drawByte s.draws) ∧
      (s.hostAccess (readOutAccess i)).draws = s.draws + 1)

/-- Host reads while idle: each register of the map at its offset, STATUS and CFG bit by bit, and the
bytes of both buffers: what a byte holds, or a fresh draw where it holds none. -/
def Obligations.ReadsWhileIdle : Prop :=
  ∀ s : State, s.busy = false →
    (∃ st : Word, (s.hostAccess (readAccess 0x04)).readData = .word st ∧
      st.getLsbD 0 = false ∧ st.getLsbD 1 = s.done ∧ st.getLsbD 2 = s.err ∧
      st.getLsbD 3 = s.werr ∧ st.extractLsb' 4 4 = 0#4 ∧ st.extractLsb' 8 4 = s.errCode ∧
      st.extractLsb' 12 20 = 0#20) ∧
    (∃ cf : Word, (s.hostAccess (readAccess 0x08)).readData = .word cf ∧
      cf.getLsbD 0 = s.cfgIe ∧ cf.getLsbD 1 = s.cfgPairStrict ∧ cf.getLsbD 2 = s.cfgTailStrict ∧
      cf.extractLsb' 3 29 = 0#29) ∧
    (s.hostAccess (readAccess 0x00)).readData = .word 0 ∧
    (s.hostAccess (readAccess 0x0C)).readData = .word s.srcLen ∧
    (s.hostAccess (readAccess 0x10)).readData = .word s.dstLen ∧
    (s.hostAccess (readAccess 0x14)).readData = .word (s.arg.setWidth 32) ∧
    (s.hostAccess (readAccess 0x18)).readData = .word (s.result.setWidth 32) ∧
    (s.hostAccess (readAccess 0x1C)).readData = .word s.errPos ∧
    (∀ i b, i < s.config.inCap → s.inBuf.read i = some b →
      (s.hostAccess (readInAccess i)).readData = .byte b) ∧
    (∀ i b, i < s.config.outCap → s.outBuf.read i = some b →
      (s.hostAccess (readOutAccess i)).readData = .byte b) ∧
    (∀ i, i < s.config.inCap → s.inBuf.read i = none →
      (s.hostAccess (readInAccess i)).readData = .byte (Config.drawByte s.draws) ∧
      (s.hostAccess (readInAccess i)).draws = s.draws + 1) ∧
    (∀ i, i < s.config.outCap → s.outBuf.read i = none →
      (s.hostAccess (readOutAccess i)).readData = .byte (Config.drawByte s.draws) ∧
      (s.hostAccess (readOutAccess i)).draws = s.draws + 1)

/-- Reads have no side effects: a Host read, admitted or not, leaves every field of the block as it was;
only what it returned is new. -/
def Obligations.ReadsHaveNoSideEffects : Prop :=
  ∀ (s : State) (a : HostAccess), a.dir = .read → s.SameBlock (s.hostAccess a)

/-- R31: reserved offsets and reserved bits read 0 and ignore writes, the read-only registers ignore
writes, and none of these sets WERR. -/
def Obligations.ReservedBitsReadZero : Prop :=
  ∀ (s : State) (v : Word),
    (∀ k, k < 8 → (s.hostAccess (readAccess (0x20 + 4 * k))).readData = .word 0 ∧
      s.hostAccess (writeAccess (0x20 + 4 * k) v) = s) ∧
    (∀ offset, offset = 0x10 ∨ offset = 0x18 ∨ offset = 0x1C →
      s.hostAccess (writeAccess offset v) = s) ∧
    (∃ st : Word, (s.hostAccess (readAccess 0x04)).readData = .word st ∧
      st &&& 0xFFFFF0F0#32 = 0) ∧
    (∃ cf : Word, (s.hostAccess (readAccess 0x08)).readData = .word cf ∧
      cf &&& 0xFFFFFFF8#32 = 0) ∧
    (∃ ar : Word, (s.hostAccess (readAccess 0x14)).readData = .word ar ∧
      ar &&& 0xFFFFFF00#32 = 0) ∧
    (∃ re : Word, (s.hostAccess (readAccess 0x18)).readData = .word re ∧
      re &&& 0xFFFFFF00#32 = 0) ∧
    s.hostAccess (writeAccess 0x04 v) = s.hostAccess (writeAccess 0x04 (v &&& 0x0000000A#32)) ∧
    s.hostAccess (writeAccess 0x08 v) = s.hostAccess (writeAccess 0x08 (v &&& 0x00000007#32)) ∧
    s.hostAccess (writeAccess 0x14 v) = s.hostAccess (writeAccess 0x14 (v &&& 0x000000FF#32)) ∧
    (s.busy = false → ∀ offset, offset ≠ 0x04 →
      (s.hostAccess (writeAccess offset v)).werr = s.werr)

/-- The registers a Host write changes other than CMD: a write takes effect at once, BUSY or not, on the
fields of its own register only, and a write to STATUS clears DONE and WERR where its bits 1 and 3 are set
and leaves everything else alone. -/
def Obligations.RegisterWritesTakeEffectAtOnce : Prop :=
  ∀ (s : State) (v : Word),
    s.hostAccess (writeAccess 0x04 v) =
      { s with done := s.done && !v.getLsbD 1, werr := s.werr && !v.getLsbD 3 } ∧
    s.hostAccess (writeAccess 0x08 v) =
      { s with cfgIe := v.getLsbD 0, cfgPairStrict := v.getLsbD 1, cfgTailStrict := v.getLsbD 2 } ∧
    ((s.hostAccess (writeAccess 0x08 v)).hostAccess (readAccess 0x08)).readData =
      .word (v &&& 0x00000007#32) ∧
    s.hostAccess (writeAccess 0x0C v) = { s with srcLen := v } ∧
    s.hostAccess (writeAccess 0x14 v) = { s with arg := v.extractLsb' 0 8 } ∧
    ((s.hostAccess (writeAccess 0x14 v)).hostAccess (readAccess 0x14)).readData =
      .word (v &&& 0x000000FF#32)

/-- R32: the interrupt line, and what raises and lowers it. -/
def Obligations.InterruptLine : Prop :=
  (∀ s : State, s.irq = true ↔ s.done = true ∧ s.cfgIe = true) ∧
  (∀ s : State, s.resetAction.irq = false) ∧
  (∀ s t : State, s.busy = true → engineStep s = .next t → t.irq = s.cfgIe) ∧
  (∀ (s : State) (v : Word), v.getLsbD 1 = true →
    (s.hostAccess (writeAccess 0x04 v)).irq = false) ∧
  (∀ (s : State) (v : Word), v.getLsbD 0 = false →
    (s.hostAccess (writeAccess 0x08 v)).irq = false) ∧
  (∀ (s : State) (v : Word), s.busy = false → (s.hostAccess (writeAccess 0x00 v)).irq = false)

/-! ## Reset -/

/-- R134, R135, R136: the reset action, BUSY or not.  Every register and field is 0, LATCH is none, every
buffer byte is unspecified, IRQ is low, REFUSED is not changed; every register and reserved offset reads
0 after it; and a running command is abandoned: the Engine's turns after it change nothing. -/
def Obligations.ResetAction : Prop :=
  ∀ s : State, s.ResetIsNext → ∃ t, step s = .next t ∧
    (t.cfgIe = false ∧ t.cfgPairStrict = false ∧ t.cfgTailStrict = false ∧ t.srcLen = 0 ∧
      t.arg = 0 ∧ t.dstLen = 0 ∧ t.result = 0 ∧ t.errPos = 0) ∧
    (t.busy = false ∧ t.done = false ∧ t.err = false ∧ t.werr = false ∧ t.errCode = 0 ∧
      t.latch = none) ∧
    (∀ a, t.inBuf.read a = none ∧ t.outBuf.read a = none) ∧
    t.refused = s.refused ∧ t.irq = false ∧
    (∀ i, i < t.config.inCap →
      (t.hostAccess (readInAccess i)).readData = .byte (Config.drawByte t.draws)) ∧
    (∀ i, i < t.config.outCap →
      (t.hostAccess (readOutAccess i)).readData = .byte (Config.drawByte t.draws)) ∧
    (∀ k, k < 16 → (t.hostAccess (readAccess (4 * k))).readData = .word 0) ∧
    engineStep t = .next t
end

