-- ==== Sys2Proof/Laws/Bits.lean ====
section
/-! SUPPORT. Bit sequences: lengths and values. -/

namespace Sys2Proof.Machine

@[simp] theorem length_bitsN (n v : Nat) : (bitsN n v).length = n := by simp [bitsN]

@[simp] theorem length_zeros (k : Nat) : (zeros k).length = k := by simp [zeros]

@[simp] theorem length_bits8 (b : Byte) : (bits8 b).length = 8 := length_bitsN 8 _

@[simp] theorem bitSequence_nil : bitSequence [] = [] := rfl

@[simp] theorem bitSequence_cons (b : Byte) (B : List Byte) :
    bitSequence (b :: B) = bits8 b ++ bitSequence B := rfl

@[simp] theorem val_nil : val [] = 0 := rfl

theorem val_foldl (s : List Bool) (acc : Nat) :
    s.foldl (fun acc b => 2 * acc + b.toNat) acc = acc * 2 ^ s.length + val s := by
  induction s generalizing acc with
  | nil => simp [val]
  | cons b s ih =>
    rw [val, List.foldl_cons, List.foldl_cons, ih, ih (2 * 0 + b.toNat), List.length_cons, Nat.pow_succ]
    ring

/-- The value of a concatenation (R12). -/
theorem val_append (s t : List Bool) : val (s ++ t) = val s * 2 ^ t.length + val t := by
  rw [val, List.foldl_append, val_foldl]
  rfl

theorem val_cons (b : Bool) (s : List Bool) : val (b :: s) = b.toNat * 2 ^ s.length + val s := by
  simpa [val] using val_foldl s b.toNat

/-- The value of `n` bits is below `2^n`. -/
theorem val_lt (s : List Bool) : val s < 2 ^ s.length := by
  induction s with
  | nil => simp
  | cons b s ih =>
    rw [val_cons, List.length_cons, Nat.pow_succ]
    cases b <;> simp <;> omega

theorem bitsN_succ (n v : Nat) : bitsN (n + 1) v = v.testBit n :: bitsN n v := by
  simp only [bitsN, List.range_succ_eq_map, List.map_cons, List.map_map]
  refine congrArg₂ List.cons (by simp) (List.map_congr_left fun p _ => ?_)
  simp only [Function.comp_apply]
  congr 1
  omega

/-- `val(bitsN(v)) = v` for `v < 2^N` (R12); in general the low-order `N` bits remain. -/
theorem val_bitsN (n v : Nat) : val (bitsN n v) = v % 2 ^ n := by
  induction n with
  | zero => simp [bitsN, Nat.mod_one]
  | succ n ih =>
    rw [bitsN_succ, val_cons, ih, length_bitsN, Nat.mod_pow_succ, Nat.toNat_testBit]
    ring

@[simp] theorem val_bits8 (b : Byte) : val (bits8 b) = b.toNat := by
  rw [bits8, val_bitsN]
  exact Nat.mod_eq_of_lt b.isLt

end Sys2Proof.Machine
end

