-- ==== Sys2Proof/Laws/Fetch.lean ====
section
/-! SUPPORT. Where an instruction is put so that the next step runs it. -/

namespace Sys2Proof.Machine

/-- A word put by `withFetchWord` is latched as by accept, and the next step is the Engine's turn on it, at
the schedule as it was. -/
theorem step_withFetchWord (s : State) (nbits w : Nat) :
    step (s.withFetchWord nbits w) = engineStep (s.accept (tableWord nbits w)) := by
  unfold step State.withFetchWord
  cases hs : s.schedule with
  | nil =>
    have e : ({ s.accept (tableWord nbits w) with schedule := [] } : State) =
        s.accept (tableWord nbits w) := by
      simp [State.accept, State.latchOf, hs]
    simp [engineNext, e]
  | cons t rest =>
    have e : ({ s.accept (tableWord nbits w) with schedule := t :: rest } : State) =
        s.accept (tableWord nbits w) := by
      simp [State.accept, State.latchOf, hs]
    simp [engineNext, takeTurn, State.popTurn, e]

end Sys2Proof.Machine
end

