-- ==== Sys2Proof/Laws/Memory.lean ====
section
/-! SUPPORT. The buffers: reading after each operation, and the canonical form that each operation keeps. -/

namespace Sys2Proof.Machine

@[simp] theorem Memory.read_nil (i : Nat) : Memory.read [] i = none := rfl

@[simp] theorem Memory.read_unspecified (i : Nat) : Memory.read Memory.unspecified i = none := rfl

theorem Memory.read_cons (j : Nat) (b : Byte) (m : Memory) (i : Nat) :
    Memory.read ((j, b) :: m) i = if i = j then some b else Memory.read m i := rfl

/-- A byte that is held is listed. -/
theorem Memory.mem_of_read {m : Memory} {i : Nat} {b : Byte} (h : Memory.read m i = some b) :
    (i, b) ∈ m := by
  induction m with
  | nil => simp at h
  | cons c m ih =>
    obtain ⟨j, x⟩ := c
    rw [Memory.read_cons] at h
    split at h
    · simp_all
    · exact List.mem_cons_of_mem _ (ih h)

/-- An index that no cell lists reads as unspecified. -/
theorem Memory.read_eq_none {m : Memory} {i : Nat} (h : ∀ c ∈ m, c.1 ≠ i) :
    Memory.read m i = none := by
  induction m with
  | nil => rfl
  | cons c m ih =>
    obtain ⟨j, x⟩ := c
    have hj : i ≠ j := fun e => h (j, x) (List.mem_cons_self ..) e.symm
    rw [Memory.read_cons, if_neg hj]
    exact ih fun c hc => h c (List.mem_cons_of_mem _ hc)

/-- Read after write: the written byte reads as written, every other byte as before. -/
theorem Memory.read_write (m : Memory) (i : Nat) (b : Byte) (a : Nat) :
    Memory.read (Memory.write m i b) a = if a = i then some b else Memory.read m a := by
  induction m with
  | nil => rfl
  | cons c m ih =>
    obtain ⟨j, x⟩ := c
    simp only [Memory.write]
    split
    · simp only [Memory.read_cons]
    · split
      · subst_vars
        simp only [Memory.read_cons]
        split <;> rfl
      · simp only [Memory.read_cons, ih]
        split <;> split <;> simp_all

/-- What a written buffer lists: the written byte, or what it listed. -/
theorem Memory.mem_write {m : Memory} {i : Nat} {b : Byte} {c : Host.Cell}
    (h : c ∈ Memory.write m i b) : c = (i, b) ∨ c ∈ m := by
  induction m with
  | nil => simpa [Memory.write] using h
  | cons d m ih =>
    obtain ⟨j, x⟩ := d
    simp only [Memory.write] at h
    split at h
    · simpa using h
    · split at h
      · rcases List.mem_cons.1 h with h | h
        · exact .inl h
        · exact .inr (List.mem_cons_of_mem _ h)
      · rcases List.mem_cons.1 h with h | h
        · exact .inr (h ▸ List.mem_cons_self ..)
        · exact (ih h).imp_right (List.mem_cons_of_mem _)

/-- A write keeps the canonical form. -/
theorem Memory.write_wf {m : Memory} (h : m.wf) (i : Nat) (b : Byte) : (Memory.write m i b).wf := by
  induction m with
  | nil => simp [Memory.write]
  | cons d m ih =>
    obtain ⟨j, x⟩ := d
    obtain ⟨hj, hm⟩ := List.pairwise_cons.1 h
    simp only [Memory.write]
    split
    · rename_i hij
      refine List.pairwise_cons.2 ⟨fun c hc => ?_, h⟩
      rcases List.mem_cons.1 hc with rfl | hc
      · exact hij
      · exact Nat.lt_trans hij (hj c hc)
    · split
      · subst_vars
        exact List.pairwise_cons.2 ⟨fun c hc => hj c hc, hm⟩
      · refine List.pairwise_cons.2 ⟨fun c hc => ?_, ih hm⟩
        rcases Memory.mem_write hc with rfl | hc
        · show j < i
          omega
        · exact hj c hc

theorem Memory.map_fst_ofBytesFrom (O : List Byte) (i : Nat) :
    (Memory.ofBytesFrom i O).map Prod.fst = List.range' i O.length := by
  induction O generalizing i with
  | nil => rfl
  | cons b O ih => simp [Memory.ofBytesFrom, ih, List.range'_succ]

@[simp] theorem Memory.length_ofBytesFrom (O : List Byte) (i : Nat) :
    (Memory.ofBytesFrom i O).length = O.length := by
  simpa using congrArg List.length (Memory.map_fst_ofBytesFrom O i)

@[simp] theorem Memory.length_ofBytes (O : List Byte) : (Memory.ofBytes O).length = O.length :=
  Memory.length_ofBytesFrom O 0

/-- The indices a result buffer holds: the first `O.length`. -/
theorem Memory.map_fst_ofBytes (O : List Byte) :
    (Memory.ofBytes O).map Prod.fst = List.range O.length := by
  rw [Memory.ofBytes, Memory.map_fst_ofBytesFrom, List.range_eq_range']

theorem Memory.read_ofBytesFrom (O : List Byte) (i a : Nat) :
    Memory.read (Memory.ofBytesFrom i O) a = if a < i then none else O[a - i]? := by
  induction O generalizing i with
  | nil => simp [Memory.ofBytesFrom]
  | cons b O ih =>
    simp only [Memory.ofBytesFrom, Memory.read_cons, ih]
    rcases Nat.lt_trichotomy a i with h | rfl | h
    · simp [h, Nat.ne_of_lt h, Nat.lt_succ_of_lt h]
    · simp
    · have e : a - i = (a - (i + 1)) + 1 := by omega
      rw [if_neg (Nat.ne_of_gt h), if_neg (by omega), if_neg (by omega), e]
      simp

/-- OUT_BUF after a successful ENC or DEC reads as the output below its length and as unspecified from
it on (R41). -/
@[simp] theorem Memory.read_ofBytes (O : List Byte) (a : Nat) :
    Memory.read (Memory.ofBytes O) a = O[a]? := by
  simp [Memory.ofBytes, Memory.read_ofBytesFrom]

theorem Memory.wf_of_map_fst_range' {m : Memory} {i n : Nat}
    (h : m.map Prod.fst = List.range' i n) : m.wf := by
  have hp : (m.map Prod.fst).Pairwise (· < ·) := by
    rw [h]
    exact List.pairwise_lt_range' ..
  exact List.pairwise_map.1 hp

/-- A result buffer has the canonical form. -/
theorem Memory.ofBytes_wf (O : List Byte) : (Memory.ofBytes O).wf :=
  Memory.wf_of_map_fst_range' (Memory.map_fst_ofBytesFrom O 0)

/-- The buffer that holds no byte has the canonical form. -/
theorem Memory.unspecified_wf : Memory.unspecified.wf := List.Pairwise.nil

/-- Both buffers have the canonical form right after reset. -/
theorem State.reset_buffers_wf : State.reset.inBuf.wf ∧ State.reset.outBuf.wf :=
  ⟨List.Pairwise.nil, List.Pairwise.nil⟩

/-! ## The Engine's reads -/

theorem Memory.fetch_succ (m : Memory) (n i d : Nat) :
    Memory.fetch m (n + 1) i d =
      ((Memory.read m i).getD (Config.drawByte d) ::
        (Memory.fetch m n (i + 1) (if (Memory.read m i).isSome then d else d + 1)).1,
       (Memory.fetch m n (i + 1) (if (Memory.read m i).isSome then d else d + 1)).2) := by
  cases h : Memory.read m i <;> simp [Memory.fetch, h]

/-- The Engine reads exactly as many bytes as it is asked for (R53). -/
@[simp] theorem Memory.length_fetch (m : Memory) (n i d : Nat) : (Memory.fetch m n i d).1.length = n := by
  induction n generalizing i d with
  | zero => rfl
  | succ n ih => simp [Memory.fetch_succ, ih]

/-- Where the Host has written the whole input, the Engine reads exactly it and takes no draw. -/
theorem Memory.fetch_of_read {m : Memory} {B : List Byte} {i d : Nat}
    (h : ∀ k, k < B.length → Memory.read m (i + k) = B[k]?) :
    Memory.fetch m B.length i d = (B, d) := by
  induction B generalizing i d with
  | nil => rfl
  | cons b B ih =>
    have h0 : Memory.read m i = some b := by simpa using h 0 (by simp)
    have hr := @ih (i + 1) d fun k hk => by
      have := h (k + 1) (by simpa using hk)
      simpa [Nat.add_assoc, Nat.add_comm 1 k] using this
    simp [Memory.fetch_succ, h0, hr]

/-- The Engine's reads depend only on the bytes below the length. -/
theorem Memory.fetch_congr {m m' : Memory} {n i d : Nat}
    (h : ∀ k, k < n → Memory.read m' (i + k) = Memory.read m (i + k)) :
    Memory.fetch m' n i d = Memory.fetch m n i d := by
  induction n generalizing i d with
  | zero => rfl
  | succ n ih =>
    have h0 : Memory.read m' i = Memory.read m i := by simpa using h 0 (by simp)
    have hr : ∀ d, Memory.fetch m' n (i + 1) d = Memory.fetch m n (i + 1) d := fun d =>
      ih fun k hk => by
        have := h (k + 1) (by simpa using hk)
        simpa [Nat.add_assoc, Nat.add_comm 1 k] using this
    simp [Memory.fetch_succ, h0, hr]

/-- A byte the Host has written is read as written, whatever the others are. -/
theorem Memory.getElem?_fetch {m : Memory} {n i d k : Nat} {b : Byte} (hk : k < n)
    (h : Memory.read m (i + k) = some b) : (Memory.fetch m n i d).1[k]? = some b := by
  induction n generalizing i d k with
  | zero => omega
  | succ n ih =>
    cases k with
    | zero => simp_all [Memory.fetch_succ]
    | succ k =>
      rw [Memory.fetch_succ]
      simpa using ih (i := i + 1) (Nat.lt_of_succ_lt_succ hk)
        (by rwa [Nat.add_assoc, Nat.add_comm 1 k])

end Sys2Proof.Machine
end

