-- ==== Sys2Proof/Laws/State.lean ====
section
/-! SUPPORT. One lemma per field per state update, each true by rfl, so that no proof unfolds a record update. -/

namespace Sys2Proof.Machine

/-! ## `State.accept` (R37) -/

@[simp] theorem State.accept_cfgIe (v : Word) (s : State) : (s.accept v).cfgIe = s.cfgIe := rfl
@[simp] theorem State.accept_cfgPairStrict (v : Word) (s : State) :
    (s.accept v).cfgPairStrict = s.cfgPairStrict := rfl
@[simp] theorem State.accept_cfgTailStrict (v : Word) (s : State) :
    (s.accept v).cfgTailStrict = s.cfgTailStrict := rfl
@[simp] theorem State.accept_srcLen (v : Word) (s : State) : (s.accept v).srcLen = s.srcLen := rfl
@[simp] theorem State.accept_arg (v : Word) (s : State) : (s.accept v).arg = s.arg := rfl
@[simp] theorem State.accept_dstLen (v : Word) (s : State) : (s.accept v).dstLen = s.dstLen := rfl
@[simp] theorem State.accept_result (v : Word) (s : State) : (s.accept v).result = s.result := rfl
@[simp] theorem State.accept_errPos (v : Word) (s : State) : (s.accept v).errPos = s.errPos := rfl
@[simp] theorem State.accept_busy (v : Word) (s : State) : (s.accept v).busy = true := rfl
@[simp] theorem State.accept_done (v : Word) (s : State) : (s.accept v).done = false := rfl
@[simp] theorem State.accept_err (v : Word) (s : State) : (s.accept v).err = false := rfl
@[simp] theorem State.accept_werr (v : Word) (s : State) : (s.accept v).werr = s.werr := rfl
@[simp] theorem State.accept_errCode (v : Word) (s : State) : (s.accept v).errCode = 0 := rfl
@[simp] theorem State.accept_latch (v : Word) (s : State) : (s.accept v).latch = some (s.latchOf v) := rfl
@[simp] theorem State.accept_inBuf (v : Word) (s : State) : (s.accept v).inBuf = s.inBuf := rfl
@[simp] theorem State.accept_outBuf (v : Word) (s : State) : (s.accept v).outBuf = s.outBuf := rfl
@[simp] theorem State.accept_refused (v : Word) (s : State) : (s.accept v).refused = s.refused := rfl
@[simp] theorem State.accept_config (v : Word) (s : State) : (s.accept v).config = s.config := rfl
@[simp] theorem State.accept_draws (v : Word) (s : State) : (s.accept v).draws = s.draws := rfl
@[simp] theorem State.accept_readData (v : Word) (s : State) : (s.accept v).readData = s.readData := rfl
@[simp] theorem State.accept_schedule (v : Word) (s : State) : (s.accept v).schedule = s.schedule := rfl

/-! ## `State.completeBytes` (R41, ENC and DEC) -/

@[simp] theorem State.completeBytes_cfgIe (O : List Byte) (s : State) :
    (s.completeBytes O).cfgIe = s.cfgIe := rfl
@[simp] theorem State.completeBytes_cfgPairStrict (O : List Byte) (s : State) :
    (s.completeBytes O).cfgPairStrict = s.cfgPairStrict := rfl
@[simp] theorem State.completeBytes_cfgTailStrict (O : List Byte) (s : State) :
    (s.completeBytes O).cfgTailStrict = s.cfgTailStrict := rfl
@[simp] theorem State.completeBytes_srcLen (O : List Byte) (s : State) :
    (s.completeBytes O).srcLen = s.srcLen := rfl
@[simp] theorem State.completeBytes_arg (O : List Byte) (s : State) : (s.completeBytes O).arg = s.arg := rfl
@[simp] theorem State.completeBytes_dstLen (O : List Byte) (s : State) :
    (s.completeBytes O).dstLen = s.lengthWord O.length := rfl
@[simp] theorem State.completeBytes_result (O : List Byte) (s : State) :
    (s.completeBytes O).result = s.result := rfl
@[simp] theorem State.completeBytes_errPos (O : List Byte) (s : State) : (s.completeBytes O).errPos = 0 := rfl
@[simp] theorem State.completeBytes_busy (O : List Byte) (s : State) : (s.completeBytes O).busy = false := rfl
@[simp] theorem State.completeBytes_done (O : List Byte) (s : State) : (s.completeBytes O).done = true := rfl
@[simp] theorem State.completeBytes_err (O : List Byte) (s : State) : (s.completeBytes O).err = false := rfl
@[simp] theorem State.completeBytes_werr (O : List Byte) (s : State) :
    (s.completeBytes O).werr = s.werr := rfl
@[simp] theorem State.completeBytes_errCode (O : List Byte) (s : State) :
    (s.completeBytes O).errCode = 0 := rfl
@[simp] theorem State.completeBytes_latch (O : List Byte) (s : State) :
    (s.completeBytes O).latch = none := rfl
@[simp] theorem State.completeBytes_inBuf (O : List Byte) (s : State) :
    (s.completeBytes O).inBuf = s.inBuf := rfl
@[simp] theorem State.completeBytes_outBuf (O : List Byte) (s : State) :
    (s.completeBytes O).outBuf = Memory.ofBytes O := rfl
@[simp] theorem State.completeBytes_refused (O : List Byte) (s : State) :
    (s.completeBytes O).refused = s.refused := rfl
@[simp] theorem State.completeBytes_config (O : List Byte) (s : State) :
    (s.completeBytes O).config = s.config := rfl
@[simp] theorem State.completeBytes_draws (O : List Byte) (s : State) :
    (s.completeBytes O).draws = s.drawsAfterLength O.length := rfl
@[simp] theorem State.completeBytes_readData (O : List Byte) (s : State) :
    (s.completeBytes O).readData = s.readData := rfl
@[simp] theorem State.completeBytes_schedule (O : List Byte) (s : State) :
    (s.completeBytes O).schedule = s.schedule := rfl

/-! ## `State.completeByte` (R41, SYM and IDX) -/

@[simp] theorem State.completeByte_cfgIe (r : Byte) (s : State) : (s.completeByte r).cfgIe = s.cfgIe := rfl
@[simp] theorem State.completeByte_cfgPairStrict (r : Byte) (s : State) :
    (s.completeByte r).cfgPairStrict = s.cfgPairStrict := rfl
@[simp] theorem State.completeByte_cfgTailStrict (r : Byte) (s : State) :
    (s.completeByte r).cfgTailStrict = s.cfgTailStrict := rfl
@[simp] theorem State.completeByte_srcLen (r : Byte) (s : State) : (s.completeByte r).srcLen = s.srcLen := rfl
@[simp] theorem State.completeByte_arg (r : Byte) (s : State) : (s.completeByte r).arg = s.arg := rfl
@[simp] theorem State.completeByte_dstLen (r : Byte) (s : State) : (s.completeByte r).dstLen = s.dstLen := rfl
@[simp] theorem State.completeByte_result (r : Byte) (s : State) : (s.completeByte r).result = r := rfl
@[simp] theorem State.completeByte_errPos (r : Byte) (s : State) : (s.completeByte r).errPos = 0 := rfl
@[simp] theorem State.completeByte_busy (r : Byte) (s : State) : (s.completeByte r).busy = false := rfl
@[simp] theorem State.completeByte_done (r : Byte) (s : State) : (s.completeByte r).done = true := rfl
@[simp] theorem State.completeByte_err (r : Byte) (s : State) : (s.completeByte r).err = false := rfl
@[simp] theorem State.completeByte_werr (r : Byte) (s : State) : (s.completeByte r).werr = s.werr := rfl
@[simp] theorem State.completeByte_errCode (r : Byte) (s : State) : (s.completeByte r).errCode = 0 := rfl
@[simp] theorem State.completeByte_latch (r : Byte) (s : State) : (s.completeByte r).latch = none := rfl
@[simp] theorem State.completeByte_inBuf (r : Byte) (s : State) : (s.completeByte r).inBuf = s.inBuf := rfl
@[simp] theorem State.completeByte_outBuf (r : Byte) (s : State) : (s.completeByte r).outBuf = s.outBuf := rfl
@[simp] theorem State.completeByte_refused (r : Byte) (s : State) :
    (s.completeByte r).refused = s.refused := rfl
@[simp] theorem State.completeByte_config (r : Byte) (s : State) : (s.completeByte r).config = s.config := rfl
@[simp] theorem State.completeByte_draws (r : Byte) (s : State) : (s.completeByte r).draws = s.draws := rfl
@[simp] theorem State.completeByte_readData (r : Byte) (s : State) :
    (s.completeByte r).readData = s.readData := rfl
@[simp] theorem State.completeByte_schedule (r : Byte) (s : State) :
    (s.completeByte r).schedule = s.schedule := rfl

/-! ## `State.completeErr` (R120) -/

@[simp] theorem State.completeErr_cfgIe (c : ErrorCode) (pos : Nat) (s : State) :
    (s.completeErr c pos).cfgIe = s.cfgIe := rfl
@[simp] theorem State.completeErr_cfgPairStrict (c : ErrorCode) (pos : Nat) (s : State) :
    (s.completeErr c pos).cfgPairStrict = s.cfgPairStrict := rfl
@[simp] theorem State.completeErr_cfgTailStrict (c : ErrorCode) (pos : Nat) (s : State) :
    (s.completeErr c pos).cfgTailStrict = s.cfgTailStrict := rfl
@[simp] theorem State.completeErr_srcLen (c : ErrorCode) (pos : Nat) (s : State) :
    (s.completeErr c pos).srcLen = s.srcLen := rfl
@[simp] theorem State.completeErr_arg (c : ErrorCode) (pos : Nat) (s : State) :
    (s.completeErr c pos).arg = s.arg := rfl
@[simp] theorem State.completeErr_dstLen (c : ErrorCode) (pos : Nat) (s : State) :
    (s.completeErr c pos).dstLen = if c.clearsOutput then 0 else s.dstLen := rfl
@[simp] theorem State.completeErr_result (c : ErrorCode) (pos : Nat) (s : State) :
    (s.completeErr c pos).result = if c.clearsResult then 0 else s.result := rfl
@[simp] theorem State.completeErr_errPos (c : ErrorCode) (pos : Nat) (s : State) :
    (s.completeErr c pos).errPos = BitVec.ofNat 32 pos := rfl
@[simp] theorem State.completeErr_busy (c : ErrorCode) (pos : Nat) (s : State) :
    (s.completeErr c pos).busy = false := rfl
@[simp] theorem State.completeErr_done (c : ErrorCode) (pos : Nat) (s : State) :
    (s.completeErr c pos).done = true := rfl
@[simp] theorem State.completeErr_err (c : ErrorCode) (pos : Nat) (s : State) :
    (s.completeErr c pos).err = true := rfl
@[simp] theorem State.completeErr_werr (c : ErrorCode) (pos : Nat) (s : State) :
    (s.completeErr c pos).werr = s.werr := rfl
@[simp] theorem State.completeErr_errCode (c : ErrorCode) (pos : Nat) (s : State) :
    (s.completeErr c pos).errCode = c.code := rfl
@[simp] theorem State.completeErr_latch (c : ErrorCode) (pos : Nat) (s : State) :
    (s.completeErr c pos).latch = none := rfl
@[simp] theorem State.completeErr_inBuf (c : ErrorCode) (pos : Nat) (s : State) :
    (s.completeErr c pos).inBuf = s.inBuf := rfl
@[simp] theorem State.completeErr_outBuf (c : ErrorCode) (pos : Nat) (s : State) :
    (s.completeErr c pos).outBuf = if c.clearsOutput then Memory.unspecified else s.outBuf := rfl
@[simp] theorem State.completeErr_refused (c : ErrorCode) (pos : Nat) (s : State) :
    (s.completeErr c pos).refused = s.refused := rfl
@[simp] theorem State.completeErr_config (c : ErrorCode) (pos : Nat) (s : State) :
    (s.completeErr c pos).config = s.config := rfl
@[simp] theorem State.completeErr_draws (c : ErrorCode) (pos : Nat) (s : State) :
    (s.completeErr c pos).draws = s.draws := rfl
@[simp] theorem State.completeErr_readData (c : ErrorCode) (pos : Nat) (s : State) :
    (s.completeErr c pos).readData = s.readData := rfl
@[simp] theorem State.completeErr_schedule (c : ErrorCode) (pos : Nat) (s : State) :
    (s.completeErr c pos).schedule = s.schedule := rfl

/-! ## `State.resetAction` (R135) -/

@[simp] theorem State.resetAction_cfgIe (s : State) : s.resetAction.cfgIe = false := rfl
@[simp] theorem State.resetAction_cfgPairStrict (s : State) : s.resetAction.cfgPairStrict = false := rfl
@[simp] theorem State.resetAction_cfgTailStrict (s : State) : s.resetAction.cfgTailStrict = false := rfl
@[simp] theorem State.resetAction_srcLen (s : State) : s.resetAction.srcLen = 0 := rfl
@[simp] theorem State.resetAction_arg (s : State) : s.resetAction.arg = 0 := rfl
@[simp] theorem State.resetAction_dstLen (s : State) : s.resetAction.dstLen = 0 := rfl
@[simp] theorem State.resetAction_result (s : State) : s.resetAction.result = 0 := rfl
@[simp] theorem State.resetAction_errPos (s : State) : s.resetAction.errPos = 0 := rfl
@[simp] theorem State.resetAction_busy (s : State) : s.resetAction.busy = false := rfl
@[simp] theorem State.resetAction_done (s : State) : s.resetAction.done = false := rfl
@[simp] theorem State.resetAction_err (s : State) : s.resetAction.err = false := rfl
@[simp] theorem State.resetAction_werr (s : State) : s.resetAction.werr = false := rfl
@[simp] theorem State.resetAction_errCode (s : State) : s.resetAction.errCode = 0 := rfl
@[simp] theorem State.resetAction_latch (s : State) : s.resetAction.latch = none := rfl
@[simp] theorem State.resetAction_inBuf (s : State) : s.resetAction.inBuf = Memory.unspecified := rfl
@[simp] theorem State.resetAction_outBuf (s : State) : s.resetAction.outBuf = Memory.unspecified := rfl
@[simp] theorem State.resetAction_refused (s : State) : s.resetAction.refused = s.refused := rfl
@[simp] theorem State.resetAction_config (s : State) : s.resetAction.config = s.config := rfl
@[simp] theorem State.resetAction_draws (s : State) : s.resetAction.draws = s.draws := rfl
@[simp] theorem State.resetAction_readData (s : State) : s.resetAction.readData = s.readData := rfl
@[simp] theorem State.resetAction_schedule (s : State) : s.resetAction.schedule = s.schedule := rfl

/-! ## `State.afterInput` (R46, R53) -/

@[simp] theorem State.afterInput_cfgIe (l : Latch) (s : State) : (s.afterInput l).cfgIe = s.cfgIe := rfl
@[simp] theorem State.afterInput_cfgPairStrict (l : Latch) (s : State) :
    (s.afterInput l).cfgPairStrict = s.cfgPairStrict := rfl
@[simp] theorem State.afterInput_cfgTailStrict (l : Latch) (s : State) :
    (s.afterInput l).cfgTailStrict = s.cfgTailStrict := rfl
@[simp] theorem State.afterInput_srcLen (l : Latch) (s : State) : (s.afterInput l).srcLen = s.srcLen := rfl
@[simp] theorem State.afterInput_arg (l : Latch) (s : State) : (s.afterInput l).arg = s.arg := rfl
@[simp] theorem State.afterInput_dstLen (l : Latch) (s : State) : (s.afterInput l).dstLen = s.dstLen := rfl
@[simp] theorem State.afterInput_result (l : Latch) (s : State) : (s.afterInput l).result = s.result := rfl
@[simp] theorem State.afterInput_errPos (l : Latch) (s : State) : (s.afterInput l).errPos = s.errPos := rfl
@[simp] theorem State.afterInput_busy (l : Latch) (s : State) : (s.afterInput l).busy = s.busy := rfl
@[simp] theorem State.afterInput_done (l : Latch) (s : State) : (s.afterInput l).done = s.done := rfl
@[simp] theorem State.afterInput_err (l : Latch) (s : State) : (s.afterInput l).err = s.err := rfl
@[simp] theorem State.afterInput_werr (l : Latch) (s : State) : (s.afterInput l).werr = s.werr := rfl
@[simp] theorem State.afterInput_errCode (l : Latch) (s : State) : (s.afterInput l).errCode = s.errCode := rfl
@[simp] theorem State.afterInput_latch (l : Latch) (s : State) : (s.afterInput l).latch = s.latch := rfl
@[simp] theorem State.afterInput_inBuf (l : Latch) (s : State) : (s.afterInput l).inBuf = s.inBuf := rfl
@[simp] theorem State.afterInput_outBuf (l : Latch) (s : State) : (s.afterInput l).outBuf = s.outBuf := rfl
@[simp] theorem State.afterInput_refused (l : Latch) (s : State) : (s.afterInput l).refused = s.refused := rfl
@[simp] theorem State.afterInput_config (l : Latch) (s : State) : (s.afterInput l).config = s.config := rfl
@[simp] theorem State.afterInput_draws (l : Latch) (s : State) :
    (s.afterInput l).draws = (s.inBuf.fetch l.length 0 s.draws).2 := rfl
@[simp] theorem State.afterInput_readData (l : Latch) (s : State) :
    (s.afterInput l).readData = s.readData := rfl
@[simp] theorem State.afterInput_schedule (l : Latch) (s : State) :
    (s.afterInput l).schedule = s.schedule := rfl

/-! ## `State.writeStatus` (R21, R23) -/

@[simp] theorem State.writeStatus_cfgIe (v : Word) (s : State) : (s.writeStatus v).cfgIe = s.cfgIe := rfl
@[simp] theorem State.writeStatus_cfgPairStrict (v : Word) (s : State) :
    (s.writeStatus v).cfgPairStrict = s.cfgPairStrict := rfl
@[simp] theorem State.writeStatus_cfgTailStrict (v : Word) (s : State) :
    (s.writeStatus v).cfgTailStrict = s.cfgTailStrict := rfl
@[simp] theorem State.writeStatus_srcLen (v : Word) (s : State) : (s.writeStatus v).srcLen = s.srcLen := rfl
@[simp] theorem State.writeStatus_arg (v : Word) (s : State) : (s.writeStatus v).arg = s.arg := rfl
@[simp] theorem State.writeStatus_dstLen (v : Word) (s : State) : (s.writeStatus v).dstLen = s.dstLen := rfl
@[simp] theorem State.writeStatus_result (v : Word) (s : State) : (s.writeStatus v).result = s.result := rfl
@[simp] theorem State.writeStatus_errPos (v : Word) (s : State) : (s.writeStatus v).errPos = s.errPos := rfl
@[simp] theorem State.writeStatus_busy (v : Word) (s : State) : (s.writeStatus v).busy = s.busy := rfl
@[simp] theorem State.writeStatus_done (v : Word) (s : State) :
    (s.writeStatus v).done = (s.done && !v.getLsbD 1) := rfl
@[simp] theorem State.writeStatus_err (v : Word) (s : State) : (s.writeStatus v).err = s.err := rfl
@[simp] theorem State.writeStatus_werr (v : Word) (s : State) :
    (s.writeStatus v).werr = (s.werr && !v.getLsbD 3) := rfl
@[simp] theorem State.writeStatus_errCode (v : Word) (s : State) :
    (s.writeStatus v).errCode = s.errCode := rfl
@[simp] theorem State.writeStatus_latch (v : Word) (s : State) : (s.writeStatus v).latch = s.latch := rfl
@[simp] theorem State.writeStatus_inBuf (v : Word) (s : State) : (s.writeStatus v).inBuf = s.inBuf := rfl
@[simp] theorem State.writeStatus_outBuf (v : Word) (s : State) : (s.writeStatus v).outBuf = s.outBuf := rfl
@[simp] theorem State.writeStatus_refused (v : Word) (s : State) :
    (s.writeStatus v).refused = s.refused := rfl
@[simp] theorem State.writeStatus_config (v : Word) (s : State) : (s.writeStatus v).config = s.config := rfl
@[simp] theorem State.writeStatus_draws (v : Word) (s : State) : (s.writeStatus v).draws = s.draws := rfl
@[simp] theorem State.writeStatus_readData (v : Word) (s : State) :
    (s.writeStatus v).readData = s.readData := rfl
@[simp] theorem State.writeStatus_schedule (v : Word) (s : State) :
    (s.writeStatus v).schedule = s.schedule := rfl

/-! ## `State.writeCfg` (R25) -/

@[simp] theorem State.writeCfg_cfgIe (v : Word) (s : State) : (s.writeCfg v).cfgIe = v.getLsbD 0 := rfl
@[simp] theorem State.writeCfg_cfgPairStrict (v : Word) (s : State) :
    (s.writeCfg v).cfgPairStrict = v.getLsbD 1 := rfl
@[simp] theorem State.writeCfg_cfgTailStrict (v : Word) (s : State) :
    (s.writeCfg v).cfgTailStrict = v.getLsbD 2 := rfl
@[simp] theorem State.writeCfg_srcLen (v : Word) (s : State) : (s.writeCfg v).srcLen = s.srcLen := rfl
@[simp] theorem State.writeCfg_arg (v : Word) (s : State) : (s.writeCfg v).arg = s.arg := rfl
@[simp] theorem State.writeCfg_dstLen (v : Word) (s : State) : (s.writeCfg v).dstLen = s.dstLen := rfl
@[simp] theorem State.writeCfg_result (v : Word) (s : State) : (s.writeCfg v).result = s.result := rfl
@[simp] theorem State.writeCfg_errPos (v : Word) (s : State) : (s.writeCfg v).errPos = s.errPos := rfl
@[simp] theorem State.writeCfg_busy (v : Word) (s : State) : (s.writeCfg v).busy = s.busy := rfl
@[simp] theorem State.writeCfg_done (v : Word) (s : State) : (s.writeCfg v).done = s.done := rfl
@[simp] theorem State.writeCfg_err (v : Word) (s : State) : (s.writeCfg v).err = s.err := rfl
@[simp] theorem State.writeCfg_werr (v : Word) (s : State) : (s.writeCfg v).werr = s.werr := rfl
@[simp] theorem State.writeCfg_errCode (v : Word) (s : State) : (s.writeCfg v).errCode = s.errCode := rfl
@[simp] theorem State.writeCfg_latch (v : Word) (s : State) : (s.writeCfg v).latch = s.latch := rfl
@[simp] theorem State.writeCfg_inBuf (v : Word) (s : State) : (s.writeCfg v).inBuf = s.inBuf := rfl
@[simp] theorem State.writeCfg_outBuf (v : Word) (s : State) : (s.writeCfg v).outBuf = s.outBuf := rfl
@[simp] theorem State.writeCfg_refused (v : Word) (s : State) : (s.writeCfg v).refused = s.refused := rfl
@[simp] theorem State.writeCfg_config (v : Word) (s : State) : (s.writeCfg v).config = s.config := rfl
@[simp] theorem State.writeCfg_draws (v : Word) (s : State) : (s.writeCfg v).draws = s.draws := rfl
@[simp] theorem State.writeCfg_readData (v : Word) (s : State) : (s.writeCfg v).readData = s.readData := rfl
@[simp] theorem State.writeCfg_schedule (v : Word) (s : State) : (s.writeCfg v).schedule = s.schedule := rfl

/-! ## `State.setWerr` (R23) -/

@[simp] theorem State.setWerr_cfgIe (s : State) : s.setWerr.cfgIe = s.cfgIe := rfl
@[simp] theorem State.setWerr_cfgPairStrict (s : State) : s.setWerr.cfgPairStrict = s.cfgPairStrict := rfl
@[simp] theorem State.setWerr_cfgTailStrict (s : State) : s.setWerr.cfgTailStrict = s.cfgTailStrict := rfl
@[simp] theorem State.setWerr_srcLen (s : State) : s.setWerr.srcLen = s.srcLen := rfl
@[simp] theorem State.setWerr_arg (s : State) : s.setWerr.arg = s.arg := rfl
@[simp] theorem State.setWerr_dstLen (s : State) : s.setWerr.dstLen = s.dstLen := rfl
@[simp] theorem State.setWerr_result (s : State) : s.setWerr.result = s.result := rfl
@[simp] theorem State.setWerr_errPos (s : State) : s.setWerr.errPos = s.errPos := rfl
@[simp] theorem State.setWerr_busy (s : State) : s.setWerr.busy = s.busy := rfl
@[simp] theorem State.setWerr_done (s : State) : s.setWerr.done = s.done := rfl
@[simp] theorem State.setWerr_err (s : State) : s.setWerr.err = s.err := rfl
@[simp] theorem State.setWerr_werr (s : State) : s.setWerr.werr = true := rfl
@[simp] theorem State.setWerr_errCode (s : State) : s.setWerr.errCode = s.errCode := rfl
@[simp] theorem State.setWerr_latch (s : State) : s.setWerr.latch = s.latch := rfl
@[simp] theorem State.setWerr_inBuf (s : State) : s.setWerr.inBuf = s.inBuf := rfl
@[simp] theorem State.setWerr_outBuf (s : State) : s.setWerr.outBuf = s.outBuf := rfl
@[simp] theorem State.setWerr_refused (s : State) : s.setWerr.refused = s.refused := rfl
@[simp] theorem State.setWerr_config (s : State) : s.setWerr.config = s.config := rfl
@[simp] theorem State.setWerr_draws (s : State) : s.setWerr.draws = s.draws := rfl
@[simp] theorem State.setWerr_readData (s : State) : s.setWerr.readData = s.readData := rfl
@[simp] theorem State.setWerr_schedule (s : State) : s.setWerr.schedule = s.schedule := rfl

/-! ## `State.answer` (R50) -/

@[simp] theorem State.answer_cfgIe (r : ReadData) (s : State) : (s.answer r).cfgIe = s.cfgIe := rfl
@[simp] theorem State.answer_cfgPairStrict (r : ReadData) (s : State) :
    (s.answer r).cfgPairStrict = s.cfgPairStrict := rfl
@[simp] theorem State.answer_cfgTailStrict (r : ReadData) (s : State) :
    (s.answer r).cfgTailStrict = s.cfgTailStrict := rfl
@[simp] theorem State.answer_srcLen (r : ReadData) (s : State) : (s.answer r).srcLen = s.srcLen := rfl
@[simp] theorem State.answer_arg (r : ReadData) (s : State) : (s.answer r).arg = s.arg := rfl
@[simp] theorem State.answer_dstLen (r : ReadData) (s : State) : (s.answer r).dstLen = s.dstLen := rfl
@[simp] theorem State.answer_result (r : ReadData) (s : State) : (s.answer r).result = s.result := rfl
@[simp] theorem State.answer_errPos (r : ReadData) (s : State) : (s.answer r).errPos = s.errPos := rfl
@[simp] theorem State.answer_busy (r : ReadData) (s : State) : (s.answer r).busy = s.busy := rfl
@[simp] theorem State.answer_done (r : ReadData) (s : State) : (s.answer r).done = s.done := rfl
@[simp] theorem State.answer_err (r : ReadData) (s : State) : (s.answer r).err = s.err := rfl
@[simp] theorem State.answer_werr (r : ReadData) (s : State) : (s.answer r).werr = s.werr := rfl
@[simp] theorem State.answer_errCode (r : ReadData) (s : State) : (s.answer r).errCode = s.errCode := rfl
@[simp] theorem State.answer_latch (r : ReadData) (s : State) : (s.answer r).latch = s.latch := rfl
@[simp] theorem State.answer_inBuf (r : ReadData) (s : State) : (s.answer r).inBuf = s.inBuf := rfl
@[simp] theorem State.answer_outBuf (r : ReadData) (s : State) : (s.answer r).outBuf = s.outBuf := rfl
@[simp] theorem State.answer_refused (r : ReadData) (s : State) : (s.answer r).refused = s.refused := rfl
@[simp] theorem State.answer_config (r : ReadData) (s : State) : (s.answer r).config = s.config := rfl
@[simp] theorem State.answer_draws (r : ReadData) (s : State) : (s.answer r).draws = s.draws := rfl
@[simp] theorem State.answer_readData (r : ReadData) (s : State) : (s.answer r).readData = r := rfl
@[simp] theorem State.answer_schedule (r : ReadData) (s : State) : (s.answer r).schedule = s.schedule := rfl

/-! ## `State.answerDraw` (R13, R50) -/

@[simp] theorem State.answerDraw_cfgIe (r : ReadData) (s : State) : (s.answerDraw r).cfgIe = s.cfgIe := rfl
@[simp] theorem State.answerDraw_cfgPairStrict (r : ReadData) (s : State) :
    (s.answerDraw r).cfgPairStrict = s.cfgPairStrict := rfl
@[simp] theorem State.answerDraw_cfgTailStrict (r : ReadData) (s : State) :
    (s.answerDraw r).cfgTailStrict = s.cfgTailStrict := rfl
@[simp] theorem State.answerDraw_srcLen (r : ReadData) (s : State) : (s.answerDraw r).srcLen = s.srcLen := rfl
@[simp] theorem State.answerDraw_arg (r : ReadData) (s : State) : (s.answerDraw r).arg = s.arg := rfl
@[simp] theorem State.answerDraw_dstLen (r : ReadData) (s : State) : (s.answerDraw r).dstLen = s.dstLen := rfl
@[simp] theorem State.answerDraw_result (r : ReadData) (s : State) : (s.answerDraw r).result = s.result := rfl
@[simp] theorem State.answerDraw_errPos (r : ReadData) (s : State) : (s.answerDraw r).errPos = s.errPos := rfl
@[simp] theorem State.answerDraw_busy (r : ReadData) (s : State) : (s.answerDraw r).busy = s.busy := rfl
@[simp] theorem State.answerDraw_done (r : ReadData) (s : State) : (s.answerDraw r).done = s.done := rfl
@[simp] theorem State.answerDraw_err (r : ReadData) (s : State) : (s.answerDraw r).err = s.err := rfl
@[simp] theorem State.answerDraw_werr (r : ReadData) (s : State) : (s.answerDraw r).werr = s.werr := rfl
@[simp] theorem State.answerDraw_errCode (r : ReadData) (s : State) :
    (s.answerDraw r).errCode = s.errCode := rfl
@[simp] theorem State.answerDraw_latch (r : ReadData) (s : State) : (s.answerDraw r).latch = s.latch := rfl
@[simp] theorem State.answerDraw_inBuf (r : ReadData) (s : State) : (s.answerDraw r).inBuf = s.inBuf := rfl
@[simp] theorem State.answerDraw_outBuf (r : ReadData) (s : State) : (s.answerDraw r).outBuf = s.outBuf := rfl
@[simp] theorem State.answerDraw_refused (r : ReadData) (s : State) :
    (s.answerDraw r).refused = s.refused := rfl
@[simp] theorem State.answerDraw_config (r : ReadData) (s : State) : (s.answerDraw r).config = s.config := rfl
@[simp] theorem State.answerDraw_draws (r : ReadData) (s : State) :
    (s.answerDraw r).draws = s.draws + 1 := rfl
@[simp] theorem State.answerDraw_readData (r : ReadData) (s : State) : (s.answerDraw r).readData = r := rfl
@[simp] theorem State.answerDraw_schedule (r : ReadData) (s : State) :
    (s.answerDraw r).schedule = s.schedule := rfl

/-! ## `State.writeSrcLen` (R26) -/

@[simp] theorem State.writeSrcLen_cfgIe (v : Word) (s : State) : (s.writeSrcLen v).cfgIe = s.cfgIe := rfl
@[simp] theorem State.writeSrcLen_cfgPairStrict (v : Word) (s : State) :
    (s.writeSrcLen v).cfgPairStrict = s.cfgPairStrict := rfl
@[simp] theorem State.writeSrcLen_cfgTailStrict (v : Word) (s : State) :
    (s.writeSrcLen v).cfgTailStrict = s.cfgTailStrict := rfl
@[simp] theorem State.writeSrcLen_srcLen (v : Word) (s : State) : (s.writeSrcLen v).srcLen = v := rfl
@[simp] theorem State.writeSrcLen_arg (v : Word) (s : State) : (s.writeSrcLen v).arg = s.arg := rfl
@[simp] theorem State.writeSrcLen_dstLen (v : Word) (s : State) : (s.writeSrcLen v).dstLen = s.dstLen := rfl
@[simp] theorem State.writeSrcLen_result (v : Word) (s : State) : (s.writeSrcLen v).result = s.result := rfl
@[simp] theorem State.writeSrcLen_errPos (v : Word) (s : State) : (s.writeSrcLen v).errPos = s.errPos := rfl
@[simp] theorem State.writeSrcLen_busy (v : Word) (s : State) : (s.writeSrcLen v).busy = s.busy := rfl
@[simp] theorem State.writeSrcLen_done (v : Word) (s : State) : (s.writeSrcLen v).done = s.done := rfl
@[simp] theorem State.writeSrcLen_err (v : Word) (s : State) : (s.writeSrcLen v).err = s.err := rfl
@[simp] theorem State.writeSrcLen_werr (v : Word) (s : State) : (s.writeSrcLen v).werr = s.werr := rfl
@[simp] theorem State.writeSrcLen_errCode (v : Word) (s : State) :
    (s.writeSrcLen v).errCode = s.errCode := rfl
@[simp] theorem State.writeSrcLen_latch (v : Word) (s : State) : (s.writeSrcLen v).latch = s.latch := rfl
@[simp] theorem State.writeSrcLen_inBuf (v : Word) (s : State) : (s.writeSrcLen v).inBuf = s.inBuf := rfl
@[simp] theorem State.writeSrcLen_outBuf (v : Word) (s : State) : (s.writeSrcLen v).outBuf = s.outBuf := rfl
@[simp] theorem State.writeSrcLen_refused (v : Word) (s : State) :
    (s.writeSrcLen v).refused = s.refused := rfl
@[simp] theorem State.writeSrcLen_config (v : Word) (s : State) : (s.writeSrcLen v).config = s.config := rfl
@[simp] theorem State.writeSrcLen_draws (v : Word) (s : State) : (s.writeSrcLen v).draws = s.draws := rfl
@[simp] theorem State.writeSrcLen_readData (v : Word) (s : State) :
    (s.writeSrcLen v).readData = s.readData := rfl
@[simp] theorem State.writeSrcLen_schedule (v : Word) (s : State) :
    (s.writeSrcLen v).schedule = s.schedule := rfl

/-! ## `State.writeArg` (R28) -/

@[simp] theorem State.writeArg_cfgIe (v : Word) (s : State) : (s.writeArg v).cfgIe = s.cfgIe := rfl
@[simp] theorem State.writeArg_cfgPairStrict (v : Word) (s : State) :
    (s.writeArg v).cfgPairStrict = s.cfgPairStrict := rfl
@[simp] theorem State.writeArg_cfgTailStrict (v : Word) (s : State) :
    (s.writeArg v).cfgTailStrict = s.cfgTailStrict := rfl
@[simp] theorem State.writeArg_srcLen (v : Word) (s : State) : (s.writeArg v).srcLen = s.srcLen := rfl
@[simp] theorem State.writeArg_arg (v : Word) (s : State) : (s.writeArg v).arg = v.setWidth 8 := rfl
@[simp] theorem State.writeArg_dstLen (v : Word) (s : State) : (s.writeArg v).dstLen = s.dstLen := rfl
@[simp] theorem State.writeArg_result (v : Word) (s : State) : (s.writeArg v).result = s.result := rfl
@[simp] theorem State.writeArg_errPos (v : Word) (s : State) : (s.writeArg v).errPos = s.errPos := rfl
@[simp] theorem State.writeArg_busy (v : Word) (s : State) : (s.writeArg v).busy = s.busy := rfl
@[simp] theorem State.writeArg_done (v : Word) (s : State) : (s.writeArg v).done = s.done := rfl
@[simp] theorem State.writeArg_err (v : Word) (s : State) : (s.writeArg v).err = s.err := rfl
@[simp] theorem State.writeArg_werr (v : Word) (s : State) : (s.writeArg v).werr = s.werr := rfl
@[simp] theorem State.writeArg_errCode (v : Word) (s : State) : (s.writeArg v).errCode = s.errCode := rfl
@[simp] theorem State.writeArg_latch (v : Word) (s : State) : (s.writeArg v).latch = s.latch := rfl
@[simp] theorem State.writeArg_inBuf (v : Word) (s : State) : (s.writeArg v).inBuf = s.inBuf := rfl
@[simp] theorem State.writeArg_outBuf (v : Word) (s : State) : (s.writeArg v).outBuf = s.outBuf := rfl
@[simp] theorem State.writeArg_refused (v : Word) (s : State) : (s.writeArg v).refused = s.refused := rfl
@[simp] theorem State.writeArg_config (v : Word) (s : State) : (s.writeArg v).config = s.config := rfl
@[simp] theorem State.writeArg_draws (v : Word) (s : State) : (s.writeArg v).draws = s.draws := rfl
@[simp] theorem State.writeArg_readData (v : Word) (s : State) : (s.writeArg v).readData = s.readData := rfl
@[simp] theorem State.writeArg_schedule (v : Word) (s : State) : (s.writeArg v).schedule = s.schedule := rfl

/-! ## `State.storeIn` (R46) -/

@[simp] theorem State.storeIn_cfgIe (i : Nat) (b : Byte) (s : State) : (s.storeIn i b).cfgIe = s.cfgIe := rfl
@[simp] theorem State.storeIn_cfgPairStrict (i : Nat) (b : Byte) (s : State) :
    (s.storeIn i b).cfgPairStrict = s.cfgPairStrict := rfl
@[simp] theorem State.storeIn_cfgTailStrict (i : Nat) (b : Byte) (s : State) :
    (s.storeIn i b).cfgTailStrict = s.cfgTailStrict := rfl
@[simp] theorem State.storeIn_srcLen (i : Nat) (b : Byte) (s : State) :
    (s.storeIn i b).srcLen = s.srcLen := rfl
@[simp] theorem State.storeIn_arg (i : Nat) (b : Byte) (s : State) : (s.storeIn i b).arg = s.arg := rfl
@[simp] theorem State.storeIn_dstLen (i : Nat) (b : Byte) (s : State) :
    (s.storeIn i b).dstLen = s.dstLen := rfl
@[simp] theorem State.storeIn_result (i : Nat) (b : Byte) (s : State) :
    (s.storeIn i b).result = s.result := rfl
@[simp] theorem State.storeIn_errPos (i : Nat) (b : Byte) (s : State) :
    (s.storeIn i b).errPos = s.errPos := rfl
@[simp] theorem State.storeIn_busy (i : Nat) (b : Byte) (s : State) : (s.storeIn i b).busy = s.busy := rfl
@[simp] theorem State.storeIn_done (i : Nat) (b : Byte) (s : State) : (s.storeIn i b).done = s.done := rfl
@[simp] theorem State.storeIn_err (i : Nat) (b : Byte) (s : State) : (s.storeIn i b).err = s.err := rfl
@[simp] theorem State.storeIn_werr (i : Nat) (b : Byte) (s : State) : (s.storeIn i b).werr = s.werr := rfl
@[simp] theorem State.storeIn_errCode (i : Nat) (b : Byte) (s : State) :
    (s.storeIn i b).errCode = s.errCode := rfl
@[simp] theorem State.storeIn_latch (i : Nat) (b : Byte) (s : State) : (s.storeIn i b).latch = s.latch := rfl
@[simp] theorem State.storeIn_inBuf (i : Nat) (b : Byte) (s : State) :
    (s.storeIn i b).inBuf = s.inBuf.write i b := rfl
@[simp] theorem State.storeIn_outBuf (i : Nat) (b : Byte) (s : State) :
    (s.storeIn i b).outBuf = s.outBuf := rfl
@[simp] theorem State.storeIn_refused (i : Nat) (b : Byte) (s : State) :
    (s.storeIn i b).refused = s.refused := rfl
@[simp] theorem State.storeIn_config (i : Nat) (b : Byte) (s : State) :
    (s.storeIn i b).config = s.config := rfl
@[simp] theorem State.storeIn_draws (i : Nat) (b : Byte) (s : State) : (s.storeIn i b).draws = s.draws := rfl
@[simp] theorem State.storeIn_readData (i : Nat) (b : Byte) (s : State) :
    (s.storeIn i b).readData = s.readData := rfl
@[simp] theorem State.storeIn_schedule (i : Nat) (b : Byte) (s : State) :
    (s.storeIn i b).schedule = s.schedule := rfl

/-! ## `State.refuse` (R36) -/

@[simp] theorem State.refuse_cfgIe (s : State) : s.refuse.cfgIe = s.cfgIe := rfl
@[simp] theorem State.refuse_cfgPairStrict (s : State) : s.refuse.cfgPairStrict = s.cfgPairStrict := rfl
@[simp] theorem State.refuse_cfgTailStrict (s : State) : s.refuse.cfgTailStrict = s.cfgTailStrict := rfl
@[simp] theorem State.refuse_srcLen (s : State) : s.refuse.srcLen = s.srcLen := rfl
@[simp] theorem State.refuse_arg (s : State) : s.refuse.arg = s.arg := rfl
@[simp] theorem State.refuse_dstLen (s : State) : s.refuse.dstLen = s.dstLen := rfl
@[simp] theorem State.refuse_result (s : State) : s.refuse.result = s.result := rfl
@[simp] theorem State.refuse_errPos (s : State) : s.refuse.errPos = s.errPos := rfl
@[simp] theorem State.refuse_busy (s : State) : s.refuse.busy = s.busy := rfl
@[simp] theorem State.refuse_done (s : State) : s.refuse.done = s.done := rfl
@[simp] theorem State.refuse_err (s : State) : s.refuse.err = s.err := rfl
@[simp] theorem State.refuse_werr (s : State) : s.refuse.werr = s.werr := rfl
@[simp] theorem State.refuse_errCode (s : State) : s.refuse.errCode = s.errCode := rfl
@[simp] theorem State.refuse_latch (s : State) : s.refuse.latch = s.latch := rfl
@[simp] theorem State.refuse_inBuf (s : State) : s.refuse.inBuf = s.inBuf := rfl
@[simp] theorem State.refuse_outBuf (s : State) : s.refuse.outBuf = s.outBuf := rfl
@[simp] theorem State.refuse_refused (s : State) : s.refuse.refused = true := rfl
@[simp] theorem State.refuse_config (s : State) : s.refuse.config = s.config := rfl
@[simp] theorem State.refuse_draws (s : State) : s.refuse.draws = s.draws := rfl
@[simp] theorem State.refuse_readData (s : State) : s.refuse.readData = s.readData := rfl
@[simp] theorem State.refuse_schedule (s : State) : s.refuse.schedule = s.schedule := rfl

/-! ## `State.popTurn` (R51) -/

@[simp] theorem State.popTurn_cfgIe (s : State) : s.popTurn.cfgIe = s.cfgIe := rfl
@[simp] theorem State.popTurn_cfgPairStrict (s : State) : s.popTurn.cfgPairStrict = s.cfgPairStrict := rfl
@[simp] theorem State.popTurn_cfgTailStrict (s : State) : s.popTurn.cfgTailStrict = s.cfgTailStrict := rfl
@[simp] theorem State.popTurn_srcLen (s : State) : s.popTurn.srcLen = s.srcLen := rfl
@[simp] theorem State.popTurn_arg (s : State) : s.popTurn.arg = s.arg := rfl
@[simp] theorem State.popTurn_dstLen (s : State) : s.popTurn.dstLen = s.dstLen := rfl
@[simp] theorem State.popTurn_result (s : State) : s.popTurn.result = s.result := rfl
@[simp] theorem State.popTurn_errPos (s : State) : s.popTurn.errPos = s.errPos := rfl
@[simp] theorem State.popTurn_busy (s : State) : s.popTurn.busy = s.busy := rfl
@[simp] theorem State.popTurn_done (s : State) : s.popTurn.done = s.done := rfl
@[simp] theorem State.popTurn_err (s : State) : s.popTurn.err = s.err := rfl
@[simp] theorem State.popTurn_werr (s : State) : s.popTurn.werr = s.werr := rfl
@[simp] theorem State.popTurn_errCode (s : State) : s.popTurn.errCode = s.errCode := rfl
@[simp] theorem State.popTurn_latch (s : State) : s.popTurn.latch = s.latch := rfl
@[simp] theorem State.popTurn_inBuf (s : State) : s.popTurn.inBuf = s.inBuf := rfl
@[simp] theorem State.popTurn_outBuf (s : State) : s.popTurn.outBuf = s.outBuf := rfl
@[simp] theorem State.popTurn_refused (s : State) : s.popTurn.refused = s.refused := rfl
@[simp] theorem State.popTurn_config (s : State) : s.popTurn.config = s.config := rfl
@[simp] theorem State.popTurn_draws (s : State) : s.popTurn.draws = s.draws := rfl
@[simp] theorem State.popTurn_readData (s : State) : s.popTurn.readData = s.readData := rfl
@[simp] theorem State.popTurn_schedule (s : State) : s.popTurn.schedule = s.schedule.tail := rfl

end Sys2Proof.Machine
end

