-- ==== Sys2Proof/Laws/Steps.lean ====
section
/-! SUPPORT. What each meaning, each turn and the step can do, said once: if it answers a next state, then one of these cases holds. -/

namespace Sys2Proof.Machine

/-! ## Completions -/

/-- A completion runs only on a latched command. -/
theorem withLatch_eq_next {s t : State} {f : Latch → State} (h : withLatch s f = .next t) :
    ∃ l, s.latch = some l ∧ t = f l := by
  unfold withLatch at h
  split at h
  · rename_i l hl
    exact ⟨l, hl, by cases h; rfl⟩
  · cases h

@[simp] theorem withLatch_some {s : State} {l : Latch} (f : Latch → State) (h : s.latch = some l) :
    withLatch s f = .next (f l) := by
  simp [withLatch, h]

/-- ENC ends in BAD_LENGTH or in the encoded input (R88). -/
theorem execEnc_cases {s t : State} (h : execEnc s = .next t) :
    ∃ l, s.latch = some l ∧
      ((s.config.inCap < l.length ∧ t = s.completeErr .badLength 0) ∨
       (l.length ≤ s.config.inCap ∧
        t = (s.afterInput l).completeBytes (enc s.config.alphabet (s.input l)))) := by
  obtain ⟨l, hl, rfl⟩ := withLatch_eq_next h
  refine ⟨l, hl, ?_⟩
  split <;> simp_all

/-- DEC ends in BAD_LENGTH, in the decoded input, or in the first error of its scan (R102). -/
theorem execDec_cases {s t : State} (h : execDec s = .next t) :
    ∃ l, s.latch = some l ∧
      ((s.config.inCap < l.length ∧ t = s.completeErr .badLength 0) ∨
       (l.length ≤ s.config.inCap ∧ ∃ O, dec s.config.alphabet (s.input l) l.ps l.ts = .ok O ∧
        t = (s.afterInput l).completeBytes O) ∨
       (l.length ≤ s.config.inCap ∧ ∃ c pos,
        dec s.config.alphabet (s.input l) l.ps l.ts = .err c pos ∧
        t = (s.afterInput l).completeErr c pos)) := by
  obtain ⟨l, hl, rfl⟩ := withLatch_eq_next h
  refine ⟨l, hl, ?_⟩
  split
  · exact .inl ⟨‹_›, rfl⟩
  · cases hd : dec s.config.alphabet (s.input l) l.ps l.ts with
    | ok O => exact .inr (.inl ⟨by omega, O, rfl, rfl⟩)
    | err c pos => exact .inr (.inr ⟨by omega, c, pos, rfl, rfl⟩)

/-- SYM ends in BAD_ARG or in the symbol (R76). -/
theorem execSym_cases {s t : State} (h : execSym s = .next t) :
    ∃ l, s.latch = some l ∧
      ((90 < l.index ∧ t = s.completeErr .badArg 0) ∨
       (l.index ≤ 90 ∧ t = s.completeByte (symbolAt s.config.alphabet l.index))) := by
  obtain ⟨l, hl, rfl⟩ := withLatch_eq_next h
  refine ⟨l, hl, ?_⟩
  split <;> simp_all

/-- IDX ends in the entry of the reverse table (R78). -/
theorem execIdx_cases {s t : State} (h : execIdx s = .next t) :
    ∃ l, s.latch = some l ∧ t = s.completeByte (ridxRom s.config.alphabet l.arg) :=
  withLatch_eq_next h

/-- A reserved word ends in BAD_OPCODE (R60). -/
theorem completeReserved_cases {s t : State} (h : completeReserved s = .next t) :
    ∃ l, s.latch = some l ∧ t = s.completeErr .badOpcode 0 :=
  withLatch_eq_next h

/-- The causes a scan can report (R100). -/
theorem scanSymbols_err {α : List Byte} {ps ts : Bool} {S : List Byte} {n : Nat} {c : ErrorCode} {pos : Nat}
    (h : scanSymbols α ps ts n S = .err c pos) :
    (c = .invalidSymbol ∨ c = .pairOverflow ∨ c = .tailOverflow) ∧ n ≤ pos ∧ pos < n + S.length := by
  induction n, S using scanSymbols.induct α ps with
  | case1 => simp [scanSymbols] at h
  | case2 n s =>
    simp only [scanSymbols, decodeTail] at h
    split at h
    · cases h; simp
    · split at h <;> cases h; simp
  | case3 n s1 s2 rest c' p' hp =>
    simp only [scanSymbols, hp] at h
    cases h
    simp only [decodePair] at hp
    split at hp
    · cases hp; simp
    · cases hp; simp
    · split at hp <;> cases hp; simp
  | case4 n s1 s2 rest A hp ih =>
    simp only [scanSymbols, hp] at h
    cases hr : scanSymbols α ps ts (n + 2) rest with
    | bits A' => simp [hr, Scan.prepend] at h
    | err c' p' =>
      simp only [hr, Scan.prepend, Scan.err.injEq] at h
      obtain ⟨rfl, rfl⟩ := h
      obtain ⟨h1, h2, h3⟩ := ih hr
      refine ⟨h1, by omega, ?_⟩
      simp only [List.length_cons]
      omega

/-- The causes a decode can report, each at a position of the input (R100). -/
theorem dec_err {α S : List Byte} {ps ts : Bool} {c : ErrorCode} {pos : Nat}
    (h : dec α S ps ts = .err c pos) :
    (c = .invalidSymbol ∨ c = .pairOverflow ∨ c = .tailOverflow) ∧ pos < S.length := by
  unfold dec at h
  split at h
  · cases h
  · rename_i hs
    cases h
    obtain ⟨h1, -, h3⟩ := scanSymbols_err hs
    exact ⟨h1, by simpa using h3⟩

@[simp] theorem State.length_input (l : Latch) (s : State) : (s.input l).length = l.len.toNat := by
  simp [State.input, Latch.length]

/-! ## The Engine's turn -/

/-- The Engine idles, or runs the latched command, or completes a reserved word (R39, R60). -/
theorem engineStep_cases {s t : State} (h : engineStep s = .next t) :
    (s.busy = false ∧ t = s) ∨
    (s.busy = true ∧ ∃ l, s.latch = some l ∧
      ((∃ i, decode l.op = .command i ∧ exec i s = .next t) ∨
       (∃ why, decode l.op = .reserved why ∧ t = s.completeErr .badOpcode 0))) := by
  unfold engineStep at h
  split at h
  · rename_i hb
    refine .inr ⟨hb, ?_⟩
    split at h
    · rename_i l hl
      refine ⟨l, hl, ?_⟩
      unfold execWord at h
      split at h
      · rename_i i hd
        exact .inl ⟨i, hd, h⟩
      · rename_i why hd
        obtain ⟨_, -, rfl⟩ := completeReserved_cases h
        exact .inr ⟨why, hd, rfl⟩
    · cases h
  · rename_i hb
    exact .inl ⟨by simpa using hb, by cases h; rfl⟩

/-! ## The Host's turn -/

/-- What a Host access does to the state, by the access. -/
inductive HostEffect (s : State) : HostAccess → State → Prop where
  | refuse {a} (h : classify s.config a = none) : HostEffect s a s.refuse
  | answer {a} (r : ReadData) (h : a.dir = .read) : HostEffect s a (s.answer r)
  | answerDraw {a} (r : ReadData) (h : a.dir = .read) : HostEffect s a (s.answerDraw r)
  | accept (v : Word) (hb : s.busy = false) :
    HostEffect s { space := .reg, index := 0x00, width := 32, dir := .write v } (s.accept v)
  | dropCommand (v : Word) (hb : s.busy = true) :
    HostEffect s { space := .reg, index := 0x00, width := 32, dir := .write v } s.setWerr
  | writeStatus (v : Word) :
    HostEffect s { space := .reg, index := 0x04, width := 32, dir := .write v } (s.writeStatus v)
  | writeCfg (v : Word) :
    HostEffect s { space := .reg, index := 0x08, width := 32, dir := .write v } (s.writeCfg v)
  | writeSrcLen (v : Word) :
    HostEffect s { space := .reg, index := 0x0C, width := 32, dir := .write v } (s.writeSrcLen v)
  | writeArg (v : Word) :
    HostEffect s { space := .reg, index := 0x14, width := 32, dir := .write v } (s.writeArg v)
  | ignored {k : Nat} (v : Word) (h : k = 0x10 ∨ k = 0x18 ∨ 0x1C ≤ k) :
    HostEffect s { space := .reg, index := k, width := 32, dir := .write v } s
  | storeIn (i : Nat) (v : Word) (hi : i < s.config.inCap) (hb : s.busy = false) :
    HostEffect s { space := .inBuf, index := i, width := 8, dir := .write v }
      (s.storeIn i (v.setWidth 8))
  | dropInput (i : Nat) (v : Word) (hi : i < s.config.inCap) (hb : s.busy = true) :
    HostEffect s { space := .inBuf, index := i, width := 8, dir := .write v } s.setWerr
  | ignoredOut (i : Nat) (v : Word) (hi : i < s.config.outCap) :
    HostEffect s { space := .outBuf, index := i, width := 8, dir := .write v } s

/-- Where the register map puts each register (R18, R31). -/
def Reg.isAt (k : Nat) : Reg → Prop
  | .cmd => k = 0x00
  | .status => k = 0x04
  | .cfg => k = 0x08
  | .srcLen => k = 0x0C
  | .dstLen => k = 0x10
  | .arg => k = 0x14
  | .result => k = 0x18
  | .errPos => k = 0x1C
  | .reserved => 0x20 ≤ k

/-- A register that is read from the map stands where the map puts it. -/
theorem regAt_isAt {k : Nat} {r : Reg} (h : regAt k = some r) : r.isAt k := by
  unfold regAt at h
  repeat' split at h
  all_goals cases h
  all_goals simp only [Reg.isAt]
  all_goals omega

theorem State.readResult_cases (s : State) (v w : Word) :
    (∃ r, s.readResult v w = s.answer r) ∨ (∃ r, s.readResult v w = s.answerDraw r) := by
  unfold State.readResult
  split
  · exact .inr ⟨_, rfl⟩
  · exact .inl ⟨_, rfl⟩

theorem State.readByte_cases (s : State) (b : Option Byte) :
    (∃ r, s.readByte b = s.answer r) ∨ (∃ r, s.readByte b = s.answerDraw r) := by
  cases b with
  | none => exact .inr ⟨_, rfl⟩
  | some b => exact .inl ⟨_, rfl⟩

theorem State.readReg_cases (s : State) (r : Reg) :
    (∃ d, s.readReg r = s.answer d) ∨ (∃ d, s.readReg r = s.answerDraw d) := by
  cases r with
  | cmd => exact .inl ⟨_, rfl⟩
  | status => exact .inl ⟨_, rfl⟩
  | cfg => exact .inl ⟨_, rfl⟩
  | srcLen => exact .inl ⟨_, rfl⟩
  | dstLen => exact s.readResult_cases _ _
  | arg => exact .inl ⟨_, rfl⟩
  | result => exact s.readResult_cases _ _
  | errPos => exact s.readResult_cases _ _
  | reserved => exact .inl ⟨_, rfl⟩

/-- A register write has one of the effects of `HostEffect`. -/
theorem State.writeReg_effect (s : State) (v : Word) {k : Nat} {r : Reg} (h : r.isAt k) :
    HostEffect s { space := .reg, index := k, width := 32, dir := .write v } (s.writeReg r v) := by
  cases r <;> simp only [Reg.isAt] at h
  case reserved => exact .ignored v (.inr (.inr (by omega)))
  all_goals subst h
  case cmd =>
    simp only [State.writeReg, State.writeCmd]
    split
    · exact .dropCommand v ‹_›
    · exact .accept v (by simp_all)
  case status => exact .writeStatus v
  case cfg => exact .writeCfg v
  case srcLen => exact .writeSrcLen v
  case arg => exact .writeArg v
  all_goals exact .ignored v (by decide)

/-- Every Host access has one of the effects of `HostEffect`. -/
theorem State.hostAccess_effect (s : State) (a : HostAccess) : HostEffect s a (s.hostAccess a) := by
  obtain ⟨space, k, w, dir⟩ := a
  unfold State.hostAccess
  split
  · rename_i adm h
    cases space <;> cases dir <;> simp only [classify] at h
    case reg.read =>
      split at h
      · obtain ⟨r, -, rfl⟩ := Option.map_eq_some_iff.1 h
        rcases s.readReg_cases r with ⟨d, e⟩ | ⟨d, e⟩
        · simpa only [State.perform, e] using HostEffect.answer d rfl
        · simpa only [State.perform, e] using HostEffect.answerDraw d rfl
      · cases h
    case reg.write v =>
      split at h
      · rename_i hw
        subst hw
        obtain ⟨r, hr, rfl⟩ := Option.map_eq_some_iff.1 h
        exact s.writeReg_effect v (regAt_isAt hr)
      · cases h
    case inBuf.read =>
      split at h
      · cases h
        rcases s.readByte_cases (s.inBuf.read k) with ⟨d, e⟩ | ⟨d, e⟩
        · simpa only [State.perform, e] using HostEffect.answer d rfl
        · simpa only [State.perform, e] using HostEffect.answerDraw d rfl
      · cases h
    case inBuf.write v =>
      split at h
      · rename_i hw
        obtain ⟨rfl, hi⟩ := hw
        cases h
        simp only [State.perform, State.writeIn]
        split
        · exact .dropInput k v hi ‹_›
        · exact .storeIn k v hi (by simp_all)
      · cases h
    case outBuf.read =>
      split at h
      · cases h
        rcases s.readByte_cases (if s.busy then none else s.outBuf.read k) with ⟨d, e⟩ | ⟨d, e⟩
        · simpa only [State.perform, State.readOut, e] using HostEffect.answer d rfl
        · simpa only [State.perform, State.readOut, e] using HostEffect.answerDraw d rfl
      · cases h
    case outBuf.write v =>
      split at h
      · rename_i hw
        obtain ⟨rfl, hi⟩ := hw
        cases h
        exact .ignoredOut k v hi
      · cases h
    all_goals cases h
  · exact .refuse ‹_›

/-! ## The step -/

/-- A step is the Engine's turn on an empty schedule, or the first turn of the schedule. -/
theorem step_cases {s t : State} (h : step s = .next t) :
    (s.schedule = [] ∧ engineStep s = .next t) ∨
    (∃ rest, s.schedule = .engine :: rest ∧ engineStep s.popTurn = .next t) ∨
    (∃ a rest, s.schedule = .host a :: rest ∧ HostEffect s.popTurn a t) ∨
    (∃ rest, s.schedule = .reset :: rest ∧ t = s.popTurn.resetAction) := by
  unfold step at h
  split at h
  · exact .inl ⟨‹_›, h⟩
  · rename_i u rest hs
    cases u with
    | host a =>
      cases h
      exact .inr (.inr (.inl ⟨a, rest, hs, s.popTurn.hostAccess_effect a⟩))
    | engine => exact .inr (.inl ⟨rest, hs, h⟩)
    | reset =>
      cases h
      exact .inr (.inr (.inr ⟨rest, hs, rfl⟩))

end Sys2Proof.Machine
end

