-- ==== Sys2Proof/Laws/Input.lean ====
section
/-! SUPPORT. The input of a command, byte by byte: what the Host has written, and a draw for each other byte. -/

namespace Sys2Proof.Machine

/-- Byte `k` of what the Engine reads from index `i` on: the byte held, or the draw whose number is the count
of unwritten bytes before it. -/
theorem Memory.fetch_getElem? (m : Memory) (n i d k : Nat) (hk : k < n) :
    (Memory.fetch m n i d).1[k]? = some ((Memory.read m (i + k)).getD
      (Config.drawByte (d + (List.range' i k).countP fun j => (Memory.read m j).isNone))) := by
  induction n generalizing i d k with
  | zero => omega
  | succ n ih =>
    rw [Memory.fetch_succ]
    cases k with
    | zero => simp
    | succ k =>
      rw [List.getElem?_cons_succ, ih _ _ _ (Nat.lt_of_succ_lt_succ hk), List.range'_succ, List.countP_cons]
      have e : i + 1 + k = i + (k + 1) := by omega
      cases h : Memory.read m i <;> simp [e, Nat.add_assoc]
      rw [Nat.add_comm 1]

/-- The Engine takes one draw for each unwritten byte it reads (R53). -/
theorem Memory.fetch_draws (m : Memory) (n i d : Nat) :
    (Memory.fetch m n i d).2 = d + (List.range' i n).countP fun j => (Memory.read m j).isNone := by
  induction n generalizing i d with
  | zero => rfl
  | succ n ih =>
    rw [Memory.fetch_succ, ih, List.range'_succ, List.countP_cons]
    cases h : Memory.read m i <;> simp
    omega

/-- The bytes a command works on are exactly what `State.input` gives. -/
theorem State.fetches_iff (s : State) (l : Latch) (S : List Byte) : s.Fetches l S ↔ S = s.input l := by
  have key : ∀ k, k < l.len.toNat → (s.input l)[k]? =
      some ((s.inBuf.read k).getD (Config.drawByte (s.draws + s.unwritten k))) := fun k hk => by
    simpa [State.input, State.unwritten, Latch.length, List.range_eq_range'] using
      Memory.fetch_getElem? s.inBuf l.len.toNat 0 s.draws k hk
  constructor
  · rintro ⟨hl, h⟩
    refine List.ext_getElem? fun k => ?_
    by_cases hk : k < l.len.toNat
    · rw [key k hk, h k (by omega)]
    · rw [List.getElem?_eq_none (by omega), List.getElem?_eq_none (by simp; omega)]
  · rintro rfl
    exact ⟨by simp, fun k hk => key k (by simpa using hk)⟩

/-- The draws taken once the input has been read. -/
theorem State.afterInput_draws_eq (s : State) (l : Latch) :
    (s.afterInput l).draws = s.draws + s.unwritten l.len.toNat := by
  simp [State.afterInput, State.unwritten, Latch.length, Memory.fetch_draws, List.range_eq_range']

end Sys2Proof.Machine
end

