-- ==== Sys2Proof/Laws/PerInstr.lean ====
section
/-! SUPPORT. Statements made per instruction: the word of each command is a well-formed command word (R58, R59). -/

namespace Sys2Proof.Laws

/-- The encoder's word has ZERO bits `[31:4]` and an OP in 1..4, which the decoder's fields read back. -/
def CommandWord.Statement (i : Instr) : Prop :=
  CommandWord.wf (encode i) ∧ zeroField (encode i) = 0#28 ∧
    (opField (encode i)).toNat = (encode i).toNat

theorem CommandWord.enc : CommandWord.Statement .enc := by unfold CommandWord.Statement; decide
theorem CommandWord.dec : CommandWord.Statement .dec := by unfold CommandWord.Statement; decide
theorem CommandWord.sym : CommandWord.Statement .sym := by unfold CommandWord.Statement; decide
theorem CommandWord.idx : CommandWord.Statement .idx := by unfold CommandWord.Statement; decide

end Sys2Proof.Laws
end

