-- ==== Sys2Proof/Tests/Slice0.lean ====
section
/-! SUPPORT. The model's own tests: words and vectors written out from the spec, an ill-formed term for each check, one step of each command, and for each statement with hypotheses a concrete state that meets them. -/

namespace Sys2Proof.Tests

open Sys2Proof.Machine

/-! ## Words, written out from R58 and R59 -/

theorem test_decode_enc : decode 0x00000001#32 = .command .enc := by decide
theorem test_decode_dec : decode 0x00000002#32 = .command .dec := by decide
theorem test_decode_sym : decode 0x00000003#32 = .command .sym := by decide
theorem test_decode_idx : decode 0x00000004#32 = .command .idx := by decide
/-- R66: word 0 is no no-op. -/
theorem test_decode_zero : decode 0x00000000#32 = .reserved .unassignedOp := by decide
theorem test_decode_five : decode 0x00000005#32 = .reserved .unassignedOp := by decide
theorem test_decode_fifteen : decode 0x0000000F#32 = .reserved .unassignedOp := by decide
/-- Section 2.5 of the vectors: bit 4 set. -/
theorem test_decode_bit_4 : decode 0x00000011#32 = .reserved .zeroFieldSet := by decide
theorem test_decode_bit_31 : decode 0x80000001#32 = .reserved .zeroFieldSet := by decide
theorem test_table_word : decodeTableWord 32 4 = some .idx := by decide
theorem test_table_word_bits_above : decodeTableWord 32 (2 ^ 32 + 4) = some .idx := by decide
theorem test_table_word_short : decodeTableWord 4 0x14 = some .idx := by decide

/-! ## An ill-formed term for each check -/

theorem test_instr_wf : Instr.wf .enc && Instr.wf .dec && Instr.wf .sym && Instr.wf .idx := by decide
theorem test_word_zero_field : ¬ CommandWord.wf 0x00000013#32 := by decide
theorem test_word_op_low : ¬ CommandWord.wf 0x00000000#32 := by decide
theorem test_word_op_high : ¬ CommandWord.wf 0x00000005#32 := by decide

set_option maxRecDepth 4096 in
theorem test_r72_wf : Alphabet.wf Config.r72Alphabet := by decide
theorem test_alphabet_short : ¬ Alphabet.wf (Config.r72Alphabet.take 90) := fun h => by
  have := h.1
  revert this
  decide
theorem test_alphabet_repeats : ¬ Alphabet.wf (Config.r72Alphabet.set 2 0x23#8) := fun h => by
  have := List.nodup_iff_injective_get.1 h.2.1
    (a₁ := ⟨1, by decide⟩) (a₂ := ⟨2, by decide⟩) rfl
  simp at this
theorem test_alphabet_quote : ¬ Alphabet.wf (Config.r72Alphabet.set 1 0x22#8) := fun h =>
  (h.2.2.1 0x22#8 (by decide)).2.2 rfl
theorem test_alphabet_range : ¬ Alphabet.wf (Config.r72Alphabet.set 90 0x7E#8) := fun h =>
  absurd (h.2.2.1 0x7E#8 (by decide)).2.1 (by decide)
theorem test_alphabet_first : ¬ Alphabet.wf (Config.r72Alphabet.set 0 0x60#8) := fun h =>
  absurd h.2.2.2 (by decide)
theorem test_config_no_input : ¬ Config.wf { Config.hardware with inCap := 0 } := fun h =>
  absurd h.1 (by decide)
theorem test_config_input_too_large : ¬ Config.wf { Config.hardware with inCap := 2 ^ 32 } := fun h =>
  absurd h.2.1 (by decide)
theorem test_config_output_too_small : ¬ Config.wf { Config.hardware with outCap := 80659 } := fun h =>
  absurd h.2.2.1 (by decide)
theorem test_hardware_wf : Config.hardware.wf := ⟨by decide, by decide, by decide, test_r72_wf⟩

/-- R42: a 16-bit read of REG 0x04 is refused (section 2.5 of the vectors). -/
theorem test_refuse_width :
    classify Config.hardware { space := .reg, index := 0x04, width := 16, dir := .read } = none := by decide
theorem test_refuse_misaligned : classify Config.hardware (readAccess 0x05) = none := by decide
theorem test_refuse_above_map : classify Config.hardware (readAccess 0x40) = none := by decide
theorem test_refuse_out_cap : classify Config.hardware (readOutAccess 80660) = none := by decide
theorem test_refuse_in_cap : classify Config.hardware (writeInAccess 65536 0#8) = none := by decide
theorem test_refuse_wide_buffer :
    classify Config.hardware { space := .inBuf, index := 0, width := 32, dir := .read } = none := by decide
theorem test_refuse_rom :
    classify Config.hardware { space := .alphaRom, index := 0, width := 8, dir := .read } = none := by decide

/-! ## Vectors of section 2 of the spec's test file -/

/-- "hello world" (section 2.2). -/
theorem test_enc_hello_world :
    enc Config.r72Alphabet [0x68#8, 0x65#8, 0x6C#8, 0x6C#8, 0x6F#8, 0x20#8, 0x77#8, 0x6F#8, 0x72#8,
      0x6C#8, 0x64#8] =
    [0x46#8, 0x63#8, 0x5F#8, 0x24#8, 0x61#8, 0x4F#8, 0x54#8, 0x64#8, 0x4B#8, 0x6E#8, 0x73#8, 0x4D#8,
      0x2A#8, 0x6B#8] := by decide
/-- The largest single, `r = 6` (section 2.2). -/
theorem test_enc_largest_single :
    enc Config.r72Alphabet [0xDE#8, 0xAD#8, 0xBE#8, 0xEF#8] =
      [0x71#8, 0x3D#8, 0x63#8, 0x5D#8, 0x51#8] := by decide
/-- `}}!!`: truncated with `ps = 0`, rejected at its first symbol with `ps = 1` (section 2.3). -/
theorem test_dec_truncates :
    dec Config.r72Alphabet [0x7D#8, 0x7D#8, 0x21#8, 0x21#8] false false =
      .ok [0x02#8, 0xC0#8, 0x00#8] := by decide
/-- `}}"!`: scan order with `ps = 0` and with `ps = 1` (section 2.3, C6). -/
theorem test_dec_scan_order :
    dec Config.r72Alphabet [0x7D#8, 0x7D#8, 0x22#8, 0x21#8] false false = .err .invalidSymbol 2 ∧
    dec Config.r72Alphabet [0x7D#8, 0x7D#8, 0x22#8, 0x21#8] true false = .err .pairOverflow 0 := by
  decide
/-- `!}}`: the tail 90 is truncated to 26 with `ts = 0`, rejected with `ts = 1` (section 2.3). -/
theorem test_dec_tail :
    dec Config.r72Alphabet [0x21#8, 0x7D#8, 0x7D#8] true false = .ok [0x02#8, 0xD3#8] ∧
    dec Config.r72Alphabet [0x21#8, 0x7D#8, 0x7D#8] true true = .err .tailOverflow 2 := by decide
/-- R104: `!!_` and `!!a` decode alike, under every setting. -/
theorem test_dec_padding_ignored (ps ts : Bool) :
    dec Config.r72Alphabet [0x21#8, 0x21#8, 0x5F#8] ps ts = .ok [0x00#8, 0x07#8] ∧
    dec Config.r72Alphabet [0x21#8, 0x21#8, 0x61#8] ps ts = .ok [0x00#8, 0x07#8] := by
  cases ps <;> cases ts <;> decide
/-- The datapaths of R90 and R105 on a vector each. -/
theorem test_datapaths :
    encDatapath Config.r72Alphabet [0x41#8, 0x42#8] = [0x38#8, 0x79#8, 0x32#8] ∧
    decDatapath Config.r72Alphabet [0x38#8, 0x79#8, 0x32#8] true true = .ok [0x41#8, 0x42#8] := by
  decide
/-- R86 and R103, the first values. -/
theorem test_lengths :
    (List.range 14).map encLen = [0, 2, 3, 4, 5, 7, 8, 9, 10, 12, 13, 14, 15, 16] ∧
    (List.range 17).map decLen = [0, 0, 1, 2, 3, 4, 4, 5, 6, 7, 8, 8, 9, 10, 11, 12, 13] := by decide

/-! ## One step of each command -/

/-- A block that runs `op` with the given operands and input, nothing scheduled. -/
def running (op len : Word) (arg : Byte) (ps ts : Bool) (input : List Byte) : State :=
  { State.reset with
    busy := true
    latch := some { op := op, len := len, arg := arg, ps := ps, ts := ts }
    inBuf := Memory.ofBytes input }

/-- One field of the state a step answers. -/
def after {β : Type} (f : State → β) : Host.Outcome State Fault Refusal → Option β
  | .next t => some (f t)
  | .fault _ => none
  | .refused _ => none

/-- ENC of "AB" (section 2.2), one step. -/
theorem test_step_enc :
    after (fun t => (t.outBuf, t.dstLen, t.statusWord)) (step (running 1 2 0 false false [0x41#8, 0x42#8])) =
      some ([(0, 0x38#8), (1, 0x79#8), (2, 0x32#8)], 3#32, 0x00000002#32) := by decide
/-- ENC above IN_CAP (section 2.2, "ENC errors"). -/
theorem test_step_enc_bad_length :
    after (fun t => (t.outBuf, t.dstLen, t.statusWord)) (step (running 1 65537 0 false false [])) =
      some ([], 0#32, 0x00000406#32) := by decide
/-- The first DEC of program P3: PAIR_OVERFLOW at 2, STATUS 0x206. -/
theorem test_step_dec_overflow :
    after (fun t => (t.errPos, t.dstLen, t.statusWord))
      (step (running 2 4 0 true false [0x21#8, 0x21#8, 0x7D#8, 0x7D#8])) =
      some (2#32, 0#32, 0x00000206#32) := by decide
/-- The second DEC of program P3. -/
theorem test_step_dec :
    after (fun t => (t.outBuf, t.dstLen, t.statusWord))
      (step (running 2 4 0 false false [0x21#8, 0x21#8, 0x7D#8, 0x7D#8])) =
      some ([(0, 0x00#8), (1, 0x00#8), (2, 0x16#8)], 3#32, 0x00000002#32) := by decide
/-- SYM of 62 and of 91 (section 2.1). -/
theorem test_step_sym :
    after (fun t => (t.result, t.statusWord)) (step (running 3 0 62 false false [])) =
      some (0x61#8, 0x00000002#32) := by decide
theorem test_step_sym_bad_arg :
    after (fun t => (t.result, t.statusWord)) (step (running 3 0 91 false false [])) =
      some (0x00#8, 0x00000506#32) := by decide
/-- IDX of 0x7D and of 0x60 (section 2.1). -/
theorem test_step_idx :
    after (fun t => (t.result, t.statusWord)) (step (running 4 0 0x7D false false [])) =
      some (0x5A#8, 0x00000002#32) := by decide
theorem test_step_idx_invalid :
    after (fun t => (t.result, t.statusWord)) (step (running 4 0 0x60 false false [])) =
      some (0xFF#8, 0x00000002#32) := by decide
/-- A reserved word: STATUS 0x606 (section 2.5). -/
theorem test_step_reserved :
    after State.statusWord (step (running 0 0 0 false false [])) = some 0x00000606#32 := by decide
/-- A table word put where the next step runs it, right after reset. -/
theorem test_fetch_word :
    after (fun t => (t.result, t.statusWord)) (step (State.reset.withFetchWord 32 3)) =
      some (0x21#8, 0x00000002#32) := by decide

/-! ## One access of the Host (section 2.5) -/

/-- A write to CFG of all ones reads back 7. -/
theorem test_cfg_reads_back :
    ((State.reset.hostAccess (writeAccess 0x08 0xFFFFFFFF#32)).hostAccess (readAccess 0x08)).readData =
      .word 7#32 := by decide
theorem test_arg_reads_back :
    ((State.reset.hostAccess (writeAccess 0x14 0x12345678#32)).hostAccess (readAccess 0x14)).readData =
      .word 0x78#32 := by decide
/-- A write to CMD while BUSY: WERR, the command unchanged. -/
theorem test_command_while_busy :
    ((running 3 0 62 false false []).hostAccess (writeAccess 0x00 4#32)) =
      { running 3 0 62 false false [] with werr := true } := by decide

/-- STATUS read while a command runs: BUSY is bit 0, WERR bit 3 (R20, R23, R49). -/
theorem test_status_while_busy :
    (({ running 1 2 0 false false [] with werr := true }).hostAccess (readAccess 0x04)).readData =
      .word 0x00000009#32 := by decide
/-- A write of all ones to STATUS after a reserved word: DONE and WERR are cleared, ERR and ERRCODE stay
(R21 to R24). -/
theorem test_status_write :
    (({ State.reset with done := true, err := true, werr := true, errCode := 6 }).hostAccess
      (writeAccess 0x04 0xFFFFFFFF#32)).statusWord = 0x00000604#32 := by decide

/-! ## What the hypotheses of the statements ask for, met by concrete states

Each theorem is named for its statement and, where it has several clauses, for the clause. -/

/-- A written input of the latched command. -/
theorem inputIs_ab (op : Word) : (running op 2 0 false false [0x41#8, 0x42#8]).InputIs
    { op := op, len := 2, arg := 0, ps := false, ts := false } [0x41#8, 0x42#8] :=
  ⟨rfl, fun i _ => Memory.read_ofBytes [0x41#8, 0x42#8] i⟩

theorem witness_CommandWordsSelectExactly : ∃ (w : Word) (s : State) (l : Latch),
    w ≠ 0x00000001#32 ∧ w ≠ 0x00000002#32 ∧ w ≠ 0x00000003#32 ∧ w ≠ 0x00000004#32 ∧
    s.busy = true ∧ s.latch = some l ∧ l.op = w :=
  ⟨5, running 5 0 0 false false [], _, by decide, by decide, by decide, by decide, rfl, rfl, rfl⟩

theorem witness_DecodeEncodeAgree : Instr.wf .idx = true ∧ decode 0x00000004#32 = .command .idx ∧
    CommandWord.wf 0x00000001#32 ∧ CommandWord.wf 0x00000004#32 := by decide

theorem witness_StepRunsDecodedCommand_no_turn : ∃ (s : State) (l : Latch),
    Instr.wf .sym = true ∧ s.EngineIsNext ∧ s.busy = true ∧ s.latch = some l ∧
    decode l.op = .command .sym :=
  ⟨running 3 0 62 false false [], _, rfl, .inl rfl, rfl, rfl, by decide⟩

theorem witness_StepRunsDecodedCommand_engine_turn : ∃ (s : State) (l : Latch),
    Instr.wf .sym = true ∧ s.EngineIsNext ∧ s.busy = true ∧ s.latch = some l ∧
    decode l.op = .command .sym :=
  ⟨{ running 3 0 62 false false [] with schedule := [.engine, .reset] }, _, rfl,
    .inr ⟨[.reset], rfl⟩, rfl, rfl, by decide⟩

theorem witness_StepTakesFirstTurn :
    ({ State.reset with schedule := [.host (readAccess 0x04)] } : State).schedule =
      .host (readAccess 0x04) :: [] ∧
    ({ State.reset with schedule := [.reset] } : State).schedule = .reset :: [] ∧
    ({ State.reset with schedule := [.engine] } : State).schedule = .engine :: [] ∧
    State.reset.schedule = [] ∧ State.reset.busy = false := ⟨rfl, rfl, rfl, rfl, rfl⟩

/-- One latched word for each clause. -/
theorem witness_DispatchIsTotal : ∀ op ∈ [1#32, 2#32, 3#32, 4#32, 0#32, 5#32, 0x10#32],
    (running op 0 0 false false []).busy = true ∧
    ∃ l, (running op 0 0 false false []).latch = some l ∧ l.op = op :=
  fun _ _ => ⟨rfl, _, rfl, rfl⟩

theorem witness_ReverseTable : Alphabet.wf Config.r72Alphabet ∧
    Config.r72Alphabet[0]? = some 0x21#8 ∧ Config.r72Alphabet[90]? = some 0x7D#8 ∧
    0x22#8 ∉ Config.r72Alphabet ∧
    (0x23#8 : Byte).toNat = 0x23 ∧ (0x5F#8 : Byte).toNat = 0x5F ∧ (0x61#8 : Byte).toNat = 0x61 ∧
    (0x7D#8 : Byte).toNat = 0x7D ∧ (0x20#8 : Byte).toNat ≤ 0x20 ∧ 0x7E ≤ (0x7E#8 : Byte).toNat ∧
    0x80 ≤ (0x80#8 : Byte).toNat :=
  ⟨test_r72_wf, by decide, by decide, by decide, by decide, by decide, by decide, by decide, by decide,
    by decide, by decide⟩

theorem witness_AlphabetBijection : ∃ (s t u : State) (l m : Latch), s.config.wf ∧ s.latch = some l ∧
    l.arg.toNat ≤ 90 ∧ exec .sym s = .next t ∧ u.config = s.config ∧ u.latch = some m ∧
    m.arg = t.result :=
  ⟨running 3 0 90 false false [], _, running 4 0 0x7D false false [], _, _, test_hardware_wf, rfl,
    by decide, rfl, rfl, rfl, by decide⟩

theorem witness_SymLooksUpSymbol : ∀ a ∈ [0#8, 61#8, 62#8, 90#8, 91#8, 255#8],
    (running 3 0 a false false []).config.wf ∧
    (∃ l, (running 3 0 a false false []).latch = some l ∧ l.arg = a) ∧
    (running 3 0 a false false []).config.alphabet = Config.r72Alphabet :=
  fun _ _ => ⟨test_hardware_wf, ⟨_, rfl, rfl⟩, rfl⟩

theorem witness_IdxLooksUpIndex : ∀ a ∈ [0x21#8, 0x7D#8, 0x22#8, 0x60#8, 0x7E#8, 0x00#8, 0xFF#8],
    (running 4 0 a false false []).config.wf ∧
    (∃ l, (running 4 0 a false false []).latch = some l ∧ l.arg = a) ∧
    (running 4 0 a false false []).config.alphabet = Config.r72Alphabet :=
  fun _ _ => ⟨test_hardware_wf, ⟨_, rfl, rfl⟩, rfl⟩

/-- Position 15 is the last of two bytes. -/
theorem witness_BitSequenceIsMsbFirst : 15 < 8 * ([0x41#8, 0x42#8] : List Byte).length := by decide

/-- Chunk 15 is the last full one of 25 bytes. -/
theorem witness_ChunksCutTheSequence : 14 < 8 * (List.replicate 25 (0xFF#8 : Byte)).length / 13 := by decide

/-- The lengths at the edges of the three clauses. -/
theorem witness_ChunkSymbols : (zeros 13).length = 13 ∧ 1 ≤ (zeros 1).length ∧ (zeros 6).length ≤ 6 ∧
    7 ≤ (zeros 7).length ∧ (zeros 12).length ≤ 12 := by decide

/-- Remainders 0 (13 bytes), 1 (5), 6 (4), 7 (9) and 12 (8). -/
theorem witness_EncodedLength : 8 * 13 % 13 = 0 ∧ 8 * 5 % 13 = 1 ∧ 8 * 4 % 13 = 6 ∧ 8 * 9 % 13 = 7 ∧
    8 * 8 % 13 = 12 ∧ encLen 4 ≤ encLen 5 := by decide

theorem witness_EmptyIdentities : ∃ l : Latch,
    (running 1 0 0 false false []).latch = some l ∧ l.len = 0 := ⟨_, rfl, rfl⟩

theorem witness_EncCompletesOnWrittenInput : ∃ (s : State) (l : Latch) (B : List Byte),
    s.latch = some l ∧ s.InputIs l B ∧ l.len.toNat ≤ s.config.inCap ∧ encLen l.len.toNat < 2 ^ 32 ∧
    B ≠ [] :=
  ⟨running 1 2 0 false false [0x41#8, 0x42#8], _, _, rfl, inputIs_ab 1, by decide, by decide,
    by decide⟩

/-- A length of exactly IN_CAP, nothing written. -/
theorem witness_EncCompletesOnAnyInput : ∃ (s : State) (l : Latch),
    s.config.wf ∧ s.latch = some l ∧ l.len.toNat ≤ s.config.inCap ∧ l.len.toNat = 65536 ∧
    encLen l.len.toNat < 2 ^ 32 :=
  ⟨running 1 65536 0 false false [], _, test_hardware_wf, rfl, by decide, by decide, by decide⟩

theorem witness_AlphabetClosure_enc : ∃ (s t : State) (a : Nat) (b : Byte), s.config.wf ∧
    exec .enc s = .next t ∧ t.outBuf.read a = some b ∧ s.config.alphabet = Config.r72Alphabet :=
  ⟨running 1 1 0 false false [0x41#8], _, 1, 0x71#8, test_hardware_wf, rfl, by decide, rfl⟩

theorem witness_AlphabetClosure_sym : ∃ s t : State, s.config.wf ∧ exec .sym s = .next t ∧
    t.err = false ∧ s.config.alphabet = Config.r72Alphabet :=
  ⟨running 3 0 90 false false [], _, test_hardware_wf, rfl, by decide, rfl⟩

/-- A chunk of each kind: 2 bytes have a full chunk and a single, 1 byte has a padded pair. -/
theorem witness_EncodedPairsAreCanonical : Alphabet.wf Config.r72Alphabet ∧ 0 < 8 * 2 / 13 ∧
    1 ≤ 8 * 2 % 13 ∧ 8 * 2 % 13 ≤ 6 ∧ 7 ≤ 8 * 1 % 13 := ⟨test_r72_wf, by decide⟩

/-- A prefix of one pair, and each clause's symbols: an invalid first, an invalid second, the overflow at
its least value (90, 2) and the greatest value without one (90, 1). -/
theorem witness_PairIsScannedInOrder : Alphabet.wf Config.r72Alphabet ∧
    ([0x21#8, 0x21#8] : List Byte).length = 2 * 1 ∧
    (∃ A, scanSymbols Config.r72Alphabet true true 0 [0x21#8, 0x21#8] = .bits A) ∧
    indexOf Config.r72Alphabet 0x22#8 = none ∧ indexOf Config.r72Alphabet 0x7D#8 = some 90 ∧
    indexOf Config.r72Alphabet 0x24#8 = some 2 ∧ indexOf Config.r72Alphabet 0x23#8 = some 1 ∧
    8191 < 90 * 91 + 2 ∧ 90 * 91 + 1 ≤ 8191 :=
  ⟨test_r72_wf, rfl, ⟨_, rfl⟩, by decide, by decide, by decide, by decide, by decide, by decide⟩

/-- The same prefix and a tail for each clause: invalid, 64 and 63. -/
theorem witness_TailIsScannedLast : Alphabet.wf Config.r72Alphabet ∧
    ([0x21#8, 0x21#8] : List Byte).length = 2 * 1 ∧
    (∃ A, scanSymbols Config.r72Alphabet true true 0 [0x21#8, 0x21#8] = .bits A) ∧
    indexOf Config.r72Alphabet 0x7E#8 = none ∧ indexOf Config.r72Alphabet 0x63#8 = some 64 ∧
    indexOf Config.r72Alphabet 0x62#8 = some 63 :=
  ⟨test_r72_wf, rfl, ⟨_, rfl⟩, by decide, by decide, by decide⟩

theorem witness_RegroupDiscardsShortTail : (List.replicate 7 true).length < 8 := by decide

theorem witness_DecodedLength :
    dec Config.r72Alphabet [0x38#8, 0x71#8] true true = .ok [0x41#8] ∧ Config.hardware.wf ∧
    65536 ≤ Config.hardware.inCap := ⟨by decide, test_hardware_wf, by decide⟩

theorem witness_SymbolsDecodeUnderResetConfig : Alphabet.wf Config.r72Alphabet ∧
    (∀ b ∈ ([0x7D#8, 0x7D#8] : List Byte), b ∈ Config.r72Alphabet) ∧
    dec Config.r72Alphabet [0x7D#8, 0x7D#8] false false = .ok [0x02#8] :=
  ⟨test_r72_wf, by decide, by decide⟩

theorem witness_DecCompletesOnValidInput : ∃ (s : State) (l : Latch) (S O : List Byte),
    s.latch = some l ∧ s.InputIs l S ∧ l.len.toNat ≤ s.config.inCap ∧
    dec s.config.alphabet S l.ps l.ts = .ok O ∧ O ≠ [] :=
  ⟨running 2 2 0 false false [0x41#8, 0x42#8], _, _, [0x59#8], rfl, inputIs_ab 2, by decide,
    by decide, by decide⟩

/-- DEC of `!` and a byte that nothing has written, which is whatever the draw gives: under an alphabet
that holds that byte it decodes. -/
theorem witness_DecCompletesOnValidInput_unwritten : ∃ (s : State) (l : Latch) (S O : List Byte),
    s.latch = some l ∧ s.Fetches l S ∧ l.len.toNat ≤ s.config.inCap ∧
    dec s.config.alphabet S l.ps l.ts = .ok O ∧ O ≠ [] ∧ s.inBuf.read 1 = none := by
  refine ⟨{ running 2 2 0 true true [0x21#8] with
    config := { Config.hardware with alphabet := [0x21#8, Config.drawByte 0] } }, _,
    [0x21#8, Config.drawByte 0], [0x00#8], rfl, ⟨rfl, fun i hi => ?_⟩, by decide, ?_, by decide, by decide⟩
  · match i, hi with
    | 0, _ => rfl
    | 1, _ => rfl
  · show dec [0x21#8, Config.drawByte 0] [0x21#8, Config.drawByte 0] true true = .ok [0x00#8]
    generalize Config.drawByte 0 = b
    revert b
    decide

/-- DEC of `"` and an unwritten byte: the error is at the first, whatever the second is. -/
theorem witness_DecReportsFirstError_unwritten : ∃ (s : State) (l : Latch) (S : List Byte) (c : ErrorCode)
    (pos : Nat), s.latch = some l ∧ s.Fetches l S ∧ l.len.toNat ≤ s.config.inCap ∧
    dec s.config.alphabet S l.ps l.ts = .err c pos ∧ s.inBuf.read 1 = none := by
  refine ⟨running 2 2 0 true true [0x22#8], _, [0x22#8, Config.drawByte 0], .invalidSymbol, 0, rfl,
    ⟨rfl, fun i hi => ?_⟩, by decide, ?_, by decide⟩
  · match i, hi with
    | 0, _ => rfl
    | 1, _ => rfl
  · show dec Config.r72Alphabet [0x22#8, Config.drawByte 0] true true = .err .invalidSymbol 0
    have h : indexOf Config.r72Alphabet 0x22#8 = none := by decide
    simp [dec, scanSymbols, decodePair, h]

theorem witness_DecReportsFirstError : ∃ (s : State) (l : Latch) (S : List Byte) (c : ErrorCode)
    (pos : Nat), s.latch = some l ∧ s.InputIs l S ∧ l.len.toNat ≤ s.config.inCap ∧
    dec s.config.alphabet S l.ps l.ts = .err c pos :=
  ⟨running 2 2 0 true false [0x21#8, 0x22#8], _, [0x21#8, 0x22#8], .invalidSymbol, 1, rfl,
    ⟨by decide, by decide⟩, by decide, by decide⟩

/-- The invalid byte last, the bytes before it not written; the edges of each clause; both settings. -/
theorem witness_InvalidSymbolIsRejected : ∀ ps : Bool, ∀ b ∈ [0x20#8, 0x7E#8, 0x22#8, 0x60#8],
    ∃ (s : State) (l : Latch), s.config.wf ∧ s.latch = some l ∧ 2 < l.len.toNat ∧
      s.inBuf.read 2 = some b ∧
      (b.toNat < 0x21 ∨ 0x7D < b.toNat ∨ b = 0x22#8 ∨ b = 0x7E#8 ∨
        (s.config.alphabet = Config.r72Alphabet ∧ b = 0x60#8)) ∧
      l.len.toNat ≤ s.config.inCap ∧ l.ps = ps :=
  fun ps b hb => ⟨{ running 2 3 0 ps false [] with inBuf := [(2, b)] }, _, test_hardware_wf, rfl,
    by show 2 < (3#32).toNat; decide, rfl, by
      simp only [List.mem_cons, List.not_mem_nil, or_false] at hb
      rcases hb with rfl | rfl | rfl | rfl
      · exact .inl (by decide)
      · exact .inr (.inl (by decide))
      · exact .inr (.inr (.inl rfl))
      · exact .inr (.inr (.inr (.inr ⟨rfl, rfl⟩))),
    by show (3#32).toNat ≤ 65536; decide, rfl⟩

theorem witness_RoundTrip : Alphabet.wf Config.r72Alphabet := test_r72_wf

theorem witness_EncodeIsInjective : Alphabet.wf Config.r72Alphabet ∧
    enc Config.r72Alphabet [0x41#8] = enc Config.r72Alphabet [0x41#8] := ⟨test_r72_wf, rfl⟩

/-- "AB" encoded, `8y2` copied to IN_BUF, and DEC of three symbols (program P2). -/
theorem witness_RoundTripThroughTheBlock : ∃ (s t u : State) (l m : Latch) (B : List Byte), s.config.wf ∧
    s.latch = some l ∧ s.InputIs l B ∧ l.len.toNat ≤ s.config.inCap ∧ exec .enc s = .next t ∧
    u.config = s.config ∧ u.latch = some m ∧ m.len = t.dstLen ∧
    (∀ a b, t.outBuf.read a = some b → u.inBuf.read a = some b) ∧
    (∀ a b, u.inBuf.read a = some b → a < u.config.inCap) := by
  refine ⟨running 1 2 0 false false [0x41#8, 0x42#8], _,
    running 2 3 0 false false [0x38#8, 0x79#8, 0x32#8], _, _, _, test_hardware_wf, rfl, inputIs_ab 1,
    by decide, rfl, rfl, rfl, by decide, fun a b h => h, fun a b h => ?_⟩
  have hm := Memory.mem_of_read h
  have hb : ∀ c ∈ (running 2 3 0 false false [0x38#8, 0x79#8, 0x32#8]).inBuf, c.1 < 65536 := by decide
  exact hb _ hm

/-- A command that ends in each of the three symbol errors. -/
theorem witness_SymbolErrorsPointAtCause :
    (∃ t, engineStep (running 2 2 0 false false [0x21#8, 0x22#8]) = .next t ∧ t.errCode = 1) ∧
    (∃ t, engineStep (running 2 2 0 true false [0x7D#8, 0x24#8]) = .next t ∧ t.errCode = 2) ∧
    (∃ t, engineStep (running 2 3 0 true true [0x21#8, 0x21#8, 0x63#8]) = .next t ∧ t.errCode = 3) :=
  ⟨⟨_, rfl, by decide⟩, ⟨_, rfl, by decide⟩, ⟨_, rfl, by decide⟩⟩

/-- A length of IN_CAP + 1, for each of the two commands. -/
theorem witness_BadLengthBeforeAnyRead : ∀ op ∈ [1#32, 2#32],
    (∃ l, (running op 65537 0 false false []).latch = some l ∧
      (running op 65537 0 false false []).config.inCap < l.len.toNat) ∧
    (running op 65537 0 false false []).busy = true :=
  fun _ _ => ⟨⟨_, rfl, by show 65536 < (65537#32).toNat; decide⟩, rfl⟩

theorem witness_BadLengthBeforeAnyRead_raised : ∃ t,
    engineStep (running 2 65537 0 false false []) = .next t ∧ t.errCode = 4 := ⟨_, rfl, by decide⟩

/-- Each command ends in an error somewhere, but IDX; and a reserved word does. -/
theorem witness_ErrorsOfEachCommand :
    (∃ t, exec .enc (running 1 65537 0 false false []) = .next t ∧ t.err = true) ∧
    (∃ t, exec .dec (running 2 3 0 true true [0x21#8, 0x21#8, 0x63#8]) = .next t ∧ t.err = true) ∧
    (∃ t, exec .sym (running 3 0 91 false false []) = .next t ∧ t.err = true) ∧
    (∃ t, exec .idx (running 4 0 0x22 false false []) = .next t) ∧
    (∃ t, engineStep (running 0x10 0 0 false false []) = .next t) ∧
    (∀ i : Instr, 0x10#32 ≠ encode i) :=
  ⟨⟨_, rfl, by decide⟩, ⟨_, rfl, by decide⟩, ⟨_, rfl, by decide⟩, ⟨_, rfl⟩, ⟨_, rfl⟩,
    fun i => by cases i <;> decide⟩

/-- An error completion with each code that a clause names. -/
theorem witness_ErrorWriteBack :
    (∃ t, engineStep (running 2 2 0 true false [0x7D#8, 0x24#8]) = .next t ∧ t.err = true ∧ t.errCode = 2) ∧
    (∃ t, engineStep (running 1 65537 0 false false []) = .next t ∧ t.err = true ∧ t.errCode = 4) ∧
    (∃ t, engineStep (running 3 0 255 false false []) = .next t ∧ t.err = true ∧ t.errCode = 5) ∧
    (∃ t, engineStep (running 0 0 0 false false []) = .next t ∧ t.err = true ∧ t.errCode = 6) :=
  ⟨⟨_, rfl, by decide, by decide⟩, ⟨_, rfl, by decide, by decide⟩, ⟨_, rfl, by decide, by decide⟩,
    ⟨_, rfl, by decide, by decide⟩⟩

/-- A running command in a state that meets the invariant. -/
theorem running_inv (op len : Word) (arg : Byte) (ps ts : Bool) :
    (running op len arg ps ts []).Inv where
  config_wf := test_hardware_wf
  busy_iff_latched := rfl
  busy_clears_status := fun _ => ⟨rfl, rfl, rfl⟩
  err_iff_code := by simp [running, State.reset]
  code_le_six := by simp [running, State.reset]
  inBuf_wf := List.Pairwise.nil
  inBuf_bound := by simp [running, Memory.ofBytes, Memory.ofBytesFrom]
  outBuf_prefix := rfl
  outBuf_bound := Nat.zero_le _
  dstLen_eq := fun _ => rfl
  errPos_zero := fun _ _ => rfl
  failed_output := fun _ _ => ⟨rfl, rfl⟩
  badArg_result := fun _ => rfl

theorem witness_StepKeepsInvariant : ∃ s : State, s.Inv ∧ s.busy = true :=
  ⟨_, running_inv 1 2 0 false false, rfl⟩

theorem witness_RunningCommandEnds : ∃ s : State, s.Inv ∧ s.busy = true :=
  ⟨_, running_inv 2 65537 0 true true, rfl⟩

/-- A turn of each agent that answers a next state, for the statements about what a step sets and clears. -/
theorem witness_ConfigurationIsFixed : ∃ s t : State, step s = .next t ∧ s.schedule ≠ [] :=
  ⟨{ running 3 0 62 false false [] with schedule := [.engine, .reset] }, _, rfl, by decide⟩

theorem witness_BusyFollowsAcceptAndCompletion : ∃ s t : State, s.busy = s.latch.isSome ∧
    step s = .next t ∧ s.CmdWriteIsNext :=
  ⟨{ State.reset with schedule := [.host (writeAccess 0x00 1#32)] }, _, rfl, rfl, ⟨_, _, rfl⟩⟩

theorem witness_DoneFollowsCompletion : ∃ s t : State, step s = .next t ∧ s.StatusClearIsNext 1 :=
  ⟨{ State.reset with done := true, schedule := [.host (writeAccess 0x04 2#32)] }, _, rfl,
    ⟨2#32, by decide, _, rfl⟩⟩

theorem witness_WerrRecordsIgnoredAccess : ∃ s t : State, step s = .next t ∧ s.busy = true ∧
    s.InWriteIsNext :=
  ⟨{ running 3 0 62 false false [] with schedule := [.host (writeInAccess 65535 1#8)] }, _, rfl, rfl,
    ⟨65535, _, by decide, _, rfl⟩⟩

/-- The same latched ENC of one byte, in states that differ in a register and in a byte past the length. -/
theorem witness_ResultsDependOnLatchAndInput : ∃ (s s' t : State) (l : Latch), s.latch = some l ∧
    s'.latch = some l ∧ s'.config = s.config ∧ s'.draws = s.draws ∧
    (∀ a, a < l.len.toNat → s'.inBuf.read a = s.inBuf.read a) ∧ exec .enc s = .next t ∧ s' ≠ s :=
  ⟨running 1 1 0 false false [0x41#8, 0x42#8],
    { running 1 1 0 false false [0x41#8, 0x43#8] with srcLen := 7 }, _, _, rfl, rfl, rfl, rfl,
    by decide, rfl, by decide⟩

theorem witness_ResultsStayUntilNextAccept : ∃ s t : State, s.busy = false ∧ ¬ s.CmdWriteIsNext ∧
    ¬ s.ResetIsNext ∧ step s = .next t :=
  ⟨State.reset, _, rfl, by simp [State.CmdWriteIsNext, State.HostIsNext, State.reset],
    by simp [State.ResetIsNext, State.reset], rfl⟩

theorem witness_AdmittedAccessForms : classify State.reset.config (readOutAccess 80660) = none ∧
    classify State.reset.config (readOutAccess 80659) ≠ none := by decide

theorem witness_RefusedIsSticky : ∃ (s t : State) (a : HostAccess), step s = .next t ∧
    s.HostIsNext a ∧ classify s.config a = none :=
  ⟨{ State.reset with schedule := [.host (readAccess 0x40)] }, _, _, rfl, ⟨_, rfl⟩, by decide⟩

theorem witness_CommandWriteAcceptsOrIsIgnored : (running 1 0 0 false false []).busy = true ∧
    State.reset.busy = false ∧ (∀ i : Instr, 0x10#32 ≠ encode i) :=
  ⟨rfl, rfl, fun i => by cases i <;> decide⟩

theorem witness_InputIsConstantWhileBusy : ∃ (s t : State) (i : Nat), s.busy = true ∧
    i < s.config.inCap ∧ ¬ s.ResetIsNext ∧ step s = .next t :=
  ⟨running 1 0 0 false false [], _, 65535, rfl, by decide,
    by simp [State.ResetIsNext, running, State.reset], rfl⟩

theorem witness_InputWriteReadsBack : State.reset.busy = false ∧ 65535 < State.reset.config.inCap ∧
    State.reset.inBuf.read 65535 = none := by decide

theorem witness_OutputWrittenOnlyByCompletion_other_turns : ∃ s t : State,
    ¬ (s.busy = true ∧ s.EngineIsNext) ∧ ¬ s.ResetIsNext ∧ step s = .next t ∧
    80659 < s.config.outCap :=
  ⟨State.reset, _, by simp [State.reset], by simp [State.ResetIsNext, State.reset], rfl, by decide⟩

theorem witness_OutputWrittenOnlyByCompletion_completions :
    (∃ (s t : State) (l : Latch), s.latch = some l ∧ encLen l.len.toNat < 2 ^ 32 ∧
      exec .dec s = .next t) ∧
    (∃ s t : State, exec .idx s = .next t) ∧
    (∃ (s t : State) (l : Latch), s.busy = true ∧ s.latch = some l ∧
      (∀ i : Instr, l.op ≠ encode i) ∧ engineStep s = .next t) :=
  ⟨⟨running 2 2 0 false false [0x41#8, 0x42#8], _, _, rfl, by decide, rfl⟩,
    ⟨running 4 0 0 false false [], _, rfl⟩,
    ⟨running 0 0 0 false false [], _, _, rfl, rfl, fun i => by cases i <;> decide, rfl⟩⟩

theorem witness_ReadsWhileBusy : (running 1 2 0 false false [0x41#8, 0x42#8]).busy = true ∧
    (running 1 2 0 false false [0x41#8, 0x42#8]).inBuf.read 1 = some 0x42#8 ∧
    (running 1 2 0 false false [0x41#8, 0x42#8]).inBuf.read 65535 = none ∧
    65535 < (running 1 2 0 false false [0x41#8, 0x42#8]).config.inCap ∧
    80659 < (running 1 2 0 false false [0x41#8, 0x42#8]).config.outCap := by decide

theorem witness_ReadsWhileIdle : ∃ s : State, s.busy = false ∧ 80659 < s.config.outCap ∧
    s.outBuf.read 0 = some 0x21#8 ∧ s.outBuf.read 80659 = none ∧ 65535 < s.config.inCap ∧
    s.inBuf.read 0 = some 0x41#8 ∧ s.inBuf.read 65535 = none :=
  ⟨{ State.reset with inBuf := [(0, 0x41#8)], outBuf := [(0, 0x21#8)] }, rfl, by decide, rfl, by decide,
    by decide, rfl, by decide⟩

theorem witness_ReadsHaveNoSideEffects : (readAccess 0x10).dir = .read := rfl

theorem witness_ReservedBitsReadZero : State.reset.busy = false ∧ 7 < 8 := by decide

theorem witness_InterruptLine : ∃ s t : State, s.busy = true ∧ engineStep s = .next t ∧
    (2#32).getLsbD 1 = true ∧ (6#32).getLsbD 0 = false ∧ State.reset.busy = false :=
  ⟨running 3 0 62 false false [], _, rfl, rfl, by decide, by decide, rfl⟩

/-- Reset while a command runs. -/
theorem witness_ResetAction : ∃ s : State, s.ResetIsNext ∧ s.busy = true :=
  ⟨{ running 1 0 0 false false [] with schedule := [.reset] }, ⟨_, rfl⟩, rfl⟩

end Sys2Proof.Tests
end

/-! # What every completion does, and the step said by the turn it takes. -/

namespace Sys2Proof.Machine

/-! ## Completions -/

theorem State.completeBytes_completed (O : List Byte) (s : State) : (s.completeBytes O).Completed :=
  ⟨rfl, rfl, rfl⟩

theorem State.completeByte_completed (r : Byte) (s : State) : (s.completeByte r).Completed :=
  ⟨rfl, rfl, rfl⟩

theorem State.completeErr_completed (c : ErrorCode) (pos : Nat) (s : State) :
    (s.completeErr c pos).Completed :=
  ⟨rfl, rfl, rfl⟩

theorem State.completeBytes_keepsOthers (O : List Byte) (s : State) :
    s.KeepsOthers (s.completeBytes O) := by
  constructor <;> simp

theorem State.completeByte_keepsOthers (r : Byte) (s : State) : s.KeepsOthers (s.completeByte r) := by
  constructor <;> simp

theorem State.completeErr_keepsOthers (c : ErrorCode) (pos : Nat) (s : State) :
    s.KeepsOthers (s.completeErr c pos) := by
  constructor <;> simp

/-- Reading the input moves only the count of draws, which is none of the fields kept. -/
theorem State.KeepsOthers.of_afterInput {s t : State} {l : Latch} (h : (s.afterInput l).KeepsOthers t) :
    s.KeepsOthers t :=
  ⟨h.cfgIe, h.cfgPairStrict, h.cfgTailStrict, h.srcLen, h.arg, h.werr, h.inBuf, h.refused, h.config,
    h.readData, h.schedule⟩

/-- Every command that runs completes, and writes only what a completion writes (R39, R41, R120). -/
theorem exec_completes {i : Instr} {s t : State} (h : exec i s = .next t) :
    t.Completed ∧ s.KeepsOthers t := by
  cases i with
  | enc =>
    obtain ⟨l, -, ⟨-, rfl⟩ | ⟨-, rfl⟩⟩ := execEnc_cases h
    · exact ⟨State.completeErr_completed .., State.completeErr_keepsOthers ..⟩
    · exact ⟨State.completeBytes_completed .., (State.completeBytes_keepsOthers ..).of_afterInput⟩
  | dec =>
    obtain ⟨l, -, ⟨-, rfl⟩ | ⟨-, O, -, rfl⟩ | ⟨-, c, pos, -, rfl⟩⟩ := execDec_cases h
    · exact ⟨State.completeErr_completed .., State.completeErr_keepsOthers ..⟩
    · exact ⟨State.completeBytes_completed .., (State.completeBytes_keepsOthers ..).of_afterInput⟩
    · exact ⟨State.completeErr_completed .., (State.completeErr_keepsOthers ..).of_afterInput⟩
  | sym =>
    obtain ⟨l, -, ⟨-, rfl⟩ | ⟨-, rfl⟩⟩ := execSym_cases h
    · exact ⟨State.completeErr_completed .., State.completeErr_keepsOthers ..⟩
    · exact ⟨State.completeByte_completed .., State.completeByte_keepsOthers ..⟩
  | idx =>
    obtain ⟨l, -, rfl⟩ := execIdx_cases h
    exact ⟨State.completeByte_completed .., State.completeByte_keepsOthers ..⟩

/-- The Engine's turn with BUSY 1 completes the command, a reserved word included (R39). -/
theorem engineStep_completes {s t : State} (hb : s.busy = true) (h : engineStep s = .next t) :
    t.Completed ∧ s.KeepsOthers t := by
  obtain ⟨hidle, -⟩ | ⟨-, l, -, ⟨i, -, hx⟩ | ⟨why, -, rfl⟩⟩ := engineStep_cases h
  · simp [hb] at hidle
  · exact exec_completes hx
  · exact ⟨State.completeErr_completed .., State.completeErr_keepsOthers ..⟩

theorem engineStep_of_idle {s : State} (hb : s.busy = false) : engineStep s = .next s := by
  simp [engineStep, hb]

/-! ## The next turn

`State.nextTurn` reads the three cases of `EngineIsNext`, `HostIsNext` and `ResetIsNext` off the schedule at
once, so that a proof about a step is a case split over `Turn`. -/

/-- The turn the next step takes: the first one scheduled, the Engine's where none is. -/
def State.nextTurn (s : State) : Turn := s.schedule.headD .engine

theorem step_eq_takeTurn (s : State) : step s = takeTurn s.nextTurn s.popTurn := by
  unfold step State.nextTurn
  cases hs : s.schedule with
  | nil =>
    have hpop : s.popTurn = s := by
      simp only [State.popTurn, hs, List.tail_nil]
      rw [← hs]
    simp [takeTurn, hpop]
  | cons u rest => rfl

theorem State.engineIsNext_iff (s : State) : s.EngineIsNext ↔ s.nextTurn = .engine := by
  unfold State.EngineIsNext State.nextTurn
  cases s.schedule <;> simp

theorem State.hostIsNext_iff (s : State) (a : HostAccess) : s.HostIsNext a ↔ s.nextTurn = .host a := by
  unfold State.HostIsNext State.nextTurn
  cases s.schedule <;> simp

theorem State.resetIsNext_iff (s : State) : s.ResetIsNext ↔ s.nextTurn = .reset := by
  unfold State.ResetIsNext State.nextTurn
  cases s.schedule <;> simp

/-- A step is a Host access, the Engine's turn in an idle block, a completion, or a reset. -/
theorem step_turn_cases {s t : State} (h : step s = .next t) :
    (∃ a, s.nextTurn = .host a ∧ t = s.popTurn.hostAccess a) ∨
    (s.nextTurn = .engine ∧ s.busy = false ∧ t = s.popTurn) ∨
    (s.nextTurn = .engine ∧ s.busy = true ∧ t.Completed ∧ s.popTurn.KeepsOthers t) ∨
    (s.nextTurn = .reset ∧ t = s.popTurn.resetAction) := by
  rw [step_eq_takeTurn] at h
  cases hn : s.nextTurn with
  | host a =>
    rw [hn] at h
    cases h
    exact .inl ⟨a, rfl, rfl⟩
  | engine =>
    rw [hn] at h
    change engineStep s.popTurn = .next t at h
    cases hb : s.busy with
    | false =>
      rw [engineStep_of_idle (s := s.popTurn) hb] at h
      cases h
      exact .inr (.inl ⟨rfl, rfl, rfl⟩)
    | true =>
      obtain ⟨hc, hk⟩ := engineStep_completes (s := s.popTurn) hb h
      exact .inr (.inr (.inl ⟨rfl, rfl, hc, hk⟩))
  | reset =>
    rw [hn] at h
    cases h
    exact .inr (.inr (.inr ⟨rfl, rfl⟩))

end Sys2Proof.Machine

/-! # What a Host access does to BUSY, DONE, WERR and REFUSED, by the few accesses that reach them. -/

namespace Sys2Proof.Machine

/-! ## The accesses the flags look at -/

/-- A Host write to CMD (R19). -/
def IsCmdWrite (a : HostAccess) : Prop := ∃ v, a = writeAccess 0x00 v

/-- A Host write to STATUS with bit `k` set (R21, R23). -/
def IsStatusClear (k : Nat) (a : HostAccess) : Prop :=
  ∃ v : Word, v.getLsbD k = true ∧ a = writeAccess 0x04 v

/-- An admitted Host write to IN_BUF (R42, R48). -/
def IsInWrite (c : Config) (a : HostAccess) : Prop :=
  ∃ i v, i < c.inCap ∧ a = { space := .inBuf, index := i, width := 8, dir := .write v }

theorem State.cmdWriteIsNext_iff (s : State) :
    s.CmdWriteIsNext ↔ ∃ a, s.nextTurn = .host a ∧ IsCmdWrite a := by
  simp only [State.CmdWriteIsNext, State.hostIsNext_iff, IsCmdWrite]
  exact ⟨fun ⟨v, h⟩ => ⟨_, h, v, rfl⟩, by rintro ⟨_, h, v, rfl⟩; exact ⟨v, h⟩⟩

theorem State.statusClearIsNext_iff (k : Nat) (s : State) :
    s.StatusClearIsNext k ↔ ∃ a, s.nextTurn = .host a ∧ IsStatusClear k a := by
  simp only [State.StatusClearIsNext, State.hostIsNext_iff, IsStatusClear]
  exact ⟨fun ⟨v, hv, h⟩ => ⟨_, h, v, hv, rfl⟩, by rintro ⟨_, h, v, hv, rfl⟩; exact ⟨v, hv, h⟩⟩

theorem State.inWriteIsNext_iff (s : State) :
    s.InWriteIsNext ↔ ∃ a, s.nextTurn = .host a ∧ IsInWrite s.config a := by
  simp only [State.InWriteIsNext, State.hostIsNext_iff, IsInWrite]
  exact ⟨fun ⟨i, v, hi, h⟩ => ⟨_, h, i, v, hi, rfl⟩,
    by rintro ⟨_, h, i, v, hi, rfl⟩; exact ⟨i, v, hi, h⟩⟩

/-- Neither a read nor a refused access: what each of the accesses above is. -/
def IsAdmittedWrite (c : Config) (a : HostAccess) : Prop := classify c a ≠ none ∧ a.dir ≠ .read

theorem IsCmdWrite.isAdmittedWrite {a : HostAccess} (c : Config) : IsCmdWrite a → IsAdmittedWrite c a := by
  rintro ⟨v, rfl⟩
  simp [IsAdmittedWrite, writeAccess, classify, regAt]

theorem IsStatusClear.isAdmittedWrite {k : Nat} {a : HostAccess} (c : Config) :
    IsStatusClear k a → IsAdmittedWrite c a := by
  rintro ⟨v, -, rfl⟩
  simp [IsAdmittedWrite, writeAccess, classify, regAt]

theorem IsInWrite.isAdmittedWrite {c : Config} {a : HostAccess} : IsInWrite c a → IsAdmittedWrite c a := by
  rintro ⟨i, v, hi, rfl⟩
  simp [IsAdmittedWrite, classify, hi]

/-- A refused access or a read is none of the accesses that the flags look at. -/
theorem no_flag_access {c : Config} {a : HostAccess} (h : classify c a = none ∨ a.dir = .read) (k : Nat) :
    ¬ IsCmdWrite a ∧ ¬ IsStatusClear k a ∧ ¬ IsInWrite c a := by
  have hno : ¬ IsAdmittedWrite c a := fun ⟨hc, hd⟩ => h.elim hc hd
  exact ⟨fun hw => hno (hw.isAdmittedWrite c), fun hw => hno (hw.isAdmittedWrite c),
    fun hw => hno hw.isAdmittedWrite⟩

/-! ## The flags after a Host access -/

/-- A Host access sets BUSY by accept and never clears it (R20, R37). -/
theorem HostEffect.busy_iff {s t : State} {a : HostAccess} (h : HostEffect s a t) :
    t.busy = true ↔ s.busy = true ∨ IsCmdWrite a := by
  cases h
  case refuse hr => simp [no_flag_access (.inl hr) 0]
  case answer hd => simp [no_flag_access (c := s.config) (.inr hd) 0]
  case answerDraw hd => simp [no_flag_access (c := s.config) (.inr hd) 0]
  case ignored k v hk =>
    have hcmd : k ≠ 0x00 := by omega
    simp [IsCmdWrite, writeAccess, hcmd]
  all_goals simp [IsCmdWrite, writeAccess, *]

/-- A Host access never sets DONE; it clears it by a write of 1 or by accept (R21, R37). -/
theorem HostEffect.done_iff {s t : State} {a : HostAccess} (h : HostEffect s a t) :
    t.done = true ↔ s.done = true ∧ ¬ IsStatusClear 1 a ∧ ¬ (s.busy = false ∧ IsCmdWrite a) := by
  cases h
  case refuse hr => simp [no_flag_access (.inl hr) 1]
  case answer hd => simp [no_flag_access (c := s.config) (.inr hd) 1]
  case answerDraw hd => simp [no_flag_access (c := s.config) (.inr hd) 1]
  case ignored k v hk =>
    have hcmd : k ≠ 0x00 := by omega
    have hstatus : k ≠ 0x04 := by omega
    simp [IsCmdWrite, IsStatusClear, writeAccess, hcmd, hstatus]
  case writeStatus v => simp [IsCmdWrite, IsStatusClear, writeAccess, State.writeStatus]
  all_goals simp [IsCmdWrite, IsStatusClear, writeAccess, *]

/-- A Host access ignored while BUSY sets WERR, and a write of 1 clears it (R23, R38, R48). -/
theorem HostEffect.werr_iff {s t : State} {a : HostAccess} (h : HostEffect s a t) :
    t.werr = true ↔ (s.busy = true ∧ (IsCmdWrite a ∨ IsInWrite s.config a)) ∨
      (s.werr = true ∧ ¬ IsStatusClear 3 a) := by
  cases h
  case refuse hr => simp [no_flag_access (.inl hr) 3]
  case answer hd => simp [no_flag_access (c := s.config) (.inr hd) 3]
  case answerDraw hd => simp [no_flag_access (c := s.config) (.inr hd) 3]
  case ignored k v hk =>
    have hcmd : k ≠ 0x00 := by omega
    have hstatus : k ≠ 0x04 := by omega
    simp [IsCmdWrite, IsInWrite, IsStatusClear, writeAccess, hcmd, hstatus]
  case writeStatus v => simp [IsCmdWrite, IsInWrite, IsStatusClear, writeAccess, State.writeStatus]
  all_goals simp [IsCmdWrite, IsInWrite, IsStatusClear, writeAccess, *]

/-- A Host access keeps LATCH in step with BUSY (R20, R37). -/
theorem HostEffect.busy_eq_latch {s t : State} {a : HostAccess} (h : HostEffect s a t)
    (hs : s.busy = s.latch.isSome) : t.busy = t.latch.isSome := by
  cases h
  case accept => rfl
  all_goals exact hs

/-- Only a refused access touches REFUSED (R36). -/
theorem HostEffect.refused_eq {s t : State} {a : HostAccess} (h : HostEffect s a t) :
    classify s.config a = none ∨ t.refused = s.refused := by
  cases h
  case refuse hr => exact .inl hr
  all_goals exact .inr rfl

theorem State.hostAccess_of_refused {s : State} {a : HostAccess} (h : classify s.config a = none) :
    s.hostAccess a = s.refuse := by
  simp [State.hostAccess, h]

theorem State.hostAccess_refused_iff (s : State) (a : HostAccess) :
    (s.hostAccess a).refused = true ↔ s.refused = true ∨ classify s.config a = none := by
  by_cases hc : classify s.config a = none
  · simp [State.hostAccess_of_refused hc, hc]
  · have hkept := (s.hostAccess_effect a).refused_eq.resolve_left hc
    simp [hkept, hc]

end Sys2Proof.Machine

/-! # O43, O44, O45 and O49: what a step does to BUSY, DONE, WERR and REFUSED, turn by turn. -/

namespace Sys2Proof.Machine

/-- What sets and clears BUSY in a step (R20). -/
theorem step_busy_iff {s t : State} (h : step s = .next t) :
    t.busy = true ↔ (s.busy = false ∧ s.CmdWriteIsNext) ∨
      (s.busy = true ∧ ¬ s.EngineIsNext ∧ ¬ s.ResetIsNext) := by
  simp only [State.cmdWriteIsNext_iff, State.engineIsNext_iff, State.resetIsNext_iff]
  obtain ⟨a, hn, rfl⟩ | ⟨hn, hb, rfl⟩ | ⟨hn, hb, hc, -⟩ | ⟨hn, rfl⟩ := step_turn_cases h
  · rw [(State.hostAccess_effect _ a).busy_iff]
    cases hb : s.busy <;> simp [hn, hb]
  · simp [hn, hb]
  · simp [hn, hb, hc.busy]
  · simp [hn]

/-- A step keeps LATCH in step with BUSY (R20, R39, R135). -/
theorem step_busy_eq_latch {s t : State} (hs : s.busy = s.latch.isSome) (h : step s = .next t) :
    t.busy = t.latch.isSome := by
  obtain ⟨a, -, rfl⟩ | ⟨-, -, rfl⟩ | ⟨-, -, hc, -⟩ | ⟨-, rfl⟩ := step_turn_cases h
  · exact (State.hostAccess_effect _ a).busy_eq_latch hs
  · exact hs
  · simp [hc.busy, hc.latch]
  · rfl

/-- Settles O43: the four turns one by one, and LATCH is set and emptied with BUSY in each of them. -/
theorem busyFollowsAcceptAndCompletion : Obligations.BusyFollowsAcceptAndCompletion :=
  ⟨fun _ _ => step_busy_iff, fun _ _ => step_busy_eq_latch, rfl⟩

/-- What sets and clears DONE in a step (R21). -/
theorem step_done_iff {s t : State} (h : step s = .next t) :
    t.done = true ↔ (s.busy = true ∧ s.EngineIsNext) ∨
      (s.done = true ∧ ¬ s.StatusClearIsNext 1 ∧ ¬ s.ResetIsNext ∧
        ¬ (s.busy = false ∧ s.CmdWriteIsNext)) := by
  simp only [State.cmdWriteIsNext_iff, State.statusClearIsNext_iff, State.engineIsNext_iff,
    State.resetIsNext_iff]
  obtain ⟨a, hn, rfl⟩ | ⟨hn, hb, rfl⟩ | ⟨hn, hb, hc, -⟩ | ⟨hn, rfl⟩ := step_turn_cases h
  · simp [(State.hostAccess_effect _ a).done_iff, hn]
  · simp [hn, hb]
  · simp [hn, hb, hc.done]
  · simp [hn]

/-- Settles O44: the four turns one by one; the Host's is `HostEffect.done_iff`. -/
theorem doneFollowsCompletion : Obligations.DoneFollowsCompletion :=
  ⟨fun _ _ => step_done_iff, rfl⟩

/-- What sets and clears WERR in a step (R23). -/
theorem step_werr_iff {s t : State} (h : step s = .next t) :
    t.werr = true ↔ (s.busy = true ∧ (s.CmdWriteIsNext ∨ s.InWriteIsNext)) ∨
      (s.werr = true ∧ ¬ s.StatusClearIsNext 3 ∧ ¬ s.ResetIsNext) := by
  simp only [State.cmdWriteIsNext_iff, State.statusClearIsNext_iff, State.inWriteIsNext_iff,
    State.resetIsNext_iff]
  obtain ⟨a, hn, rfl⟩ | ⟨hn, hb, rfl⟩ | ⟨hn, hb, -, hk⟩ | ⟨hn, rfl⟩ := step_turn_cases h
  · simp [(State.hostAccess_effect _ a).werr_iff, hn]
  · simp [hn]
  · simp [hn, hk.werr]
  · simp [hn]

/-- Settles O45: the four turns one by one; the Host's is `HostEffect.werr_iff`, and no completion writes
WERR. -/
theorem werrRecordsIgnoredAccess : Obligations.WerrRecordsIgnoredAccess :=
  ⟨fun _ _ => step_werr_iff, rfl⟩

/-- What sets REFUSED in a step (R36). -/
theorem step_refused_iff {s t : State} (h : step s = .next t) :
    t.refused = true ↔ s.refused = true ∨ ∃ a, s.HostIsNext a ∧ classify s.config a = none := by
  simp only [State.hostIsNext_iff]
  obtain ⟨a, hn, rfl⟩ | ⟨hn, -, rfl⟩ | ⟨hn, -, -, hk⟩ | ⟨hn, rfl⟩ := step_turn_cases h
  · simp [State.hostAccess_refused_iff, hn]
  · simp [hn]
  · simp [hn, hk.refused]
  · simp [hn]

/-- A refused access sets the mark and takes its turn, and does nothing else (R36). -/
theorem step_of_refused {s : State} {a : HostAccess} (hn : s.HostIsNext a)
    (hc : classify s.config a = none) :
    step s = .next { s with schedule := s.schedule.tail, refused := true } := by
  rw [State.hostIsNext_iff] at hn
  have hpop : classify s.popTurn.config a = none := hc
  simp only [step_eq_takeTurn, hn, takeTurn, State.hostAccess_of_refused hpop]
  rfl

/-- Settles O49: no turn but a refused access writes REFUSED, reset included. -/
theorem refusedIsSticky : Obligations.RefusedIsSticky := fun s t h =>
  ⟨step_refused_iff h, fun a hn hc => by
    rw [step_of_refused hn hc] at h
    cases h
    rfl⟩

end Sys2Proof.Machine

/-! # O59, O50 and O57: a register access is a read or write of the register at its offset

What that gives for the interrupt line, for CMD, and for what is reserved or read-only. -/

namespace Sys2Proof.Machine

/-! ## Accesses by register -/

/-- A 32-bit read at the offset of a register reads that register (R18, R42). -/
theorem State.hostAccess_readAccess {k : Nat} {r : Reg} (s : State) (h : regAt k = some r) :
    s.hostAccess (readAccess k) = s.readReg r := by
  simp [State.hostAccess, readAccess, classify, h, State.perform]

/-- A 32-bit write at the offset of a register writes that register (R18, R42). -/
theorem State.hostAccess_writeAccess {k : Nat} {r : Reg} (s : State) (v : Word) (h : regAt k = some r) :
    s.hostAccess (writeAccess k v) = s.writeReg r v := by
  simp [State.hostAccess, writeAccess, classify, h, State.perform]

theorem State.hostAccess_writeCmd (s : State) (v : Word) :
    s.hostAccess (writeAccess 0x00 v) = s.writeCmd v :=
  s.hostAccess_writeAccess (r := .cmd) v rfl

theorem State.hostAccess_writeStatus (s : State) (v : Word) :
    s.hostAccess (writeAccess 0x04 v) = s.writeStatus v :=
  s.hostAccess_writeAccess (r := .status) v rfl

theorem State.hostAccess_writeCfg (s : State) (v : Word) :
    s.hostAccess (writeAccess 0x08 v) = s.writeCfg v :=
  s.hostAccess_writeAccess (r := .cfg) v rfl

theorem State.hostAccess_writeArg (s : State) (v : Word) :
    s.hostAccess (writeAccess 0x14 v) = s.writeArg v :=
  s.hostAccess_writeAccess (r := .arg) v rfl

theorem State.writeCmd_of_idle {s : State} (v : Word) (hb : s.busy = false) : s.writeCmd v = s.accept v := by
  simp [State.writeCmd, hb]

theorem State.writeCmd_of_busy {s : State} (v : Word) (hb : s.busy = true) : s.writeCmd v = s.setWerr := by
  simp [State.writeCmd, hb]

/-! ## The interrupt line (R32) -/

/-- Settles O59: completion raises the line where IE allows it; a write to STATUS, CFG or CMD lowers it by
its DONE or IE part. -/
theorem interruptLine : Obligations.InterruptLine := by
  refine ⟨fun s => by simp [State.irq], fun s => rfl, fun s t hb h => ?completion,
    fun s v hv => ?clearDone, fun s v hv => ?clearIe, fun s v hb => ?accept⟩
  case completion =>
    obtain ⟨hc, hk⟩ := engineStep_completes hb h
    simp [State.irq, hc.done, hk.cfgIe]
  case clearDone => simp [s.hostAccess_writeStatus, State.irq, State.writeStatus, hv]
  case clearIe => rw [s.hostAccess_writeCfg, State.irq, State.writeCfg_cfgIe, hv, Bool.and_false]
  case accept => simp [s.hostAccess_writeCmd, State.writeCmd_of_idle v hb, State.irq]

/-! ## A write to CMD (R37, R38) -/

/-- A word is its ZERO field above its OP field (R58). -/
theorem zeroField_append_opField (w : Word) : zeroField w ++ opField w = w :=
  BitVec.extractLsb'_append_extractLsb' (w := 28) (len := 4)

theorem decodeOp_eq_command {op : BitVec 4} {i : Instr} (h : decodeOp op = .command i) :
    0#28 ++ op = encode i := by
  unfold decodeOp at h
  repeat' split at h
  all_goals cases h
  all_goals subst op; rfl

/-- A word that selects a command is the command's word (R59). -/
theorem decode_eq_command {w : Word} {i : Instr} (h : decode w = .command i) : w = encode i := by
  unfold decode at h
  split at h
  · rename_i hz
    rw [← zeroField_append_opField w, hz]
    exact decodeOp_eq_command h
  · cases h

/-- Every other word is reserved (R59). -/
theorem decode_reserved_of_ne_encode {w : Word} (h : ∀ i, w ≠ encode i) :
    ∃ why, decode w = .reserved why := by
  cases hd : decode w with
  | command i => exact absurd (decode_eq_command hd) (h i)
  | reserved why => exact ⟨why, rfl⟩

/-- The Engine completes a latched reserved word with BAD_OPCODE (R60, R116). -/
theorem engineStep_of_reserved {s : State} {l : Latch} (hb : s.busy = true) (hl : s.latch = some l)
    (h : ∀ i, l.op ≠ encode i) : engineStep s = .next (s.completeErr .badOpcode 0) := by
  obtain ⟨why, hd⟩ := decode_reserved_of_ne_encode h
  simp [engineStep, hb, hl, execWord, hd, completeReserved]

/-- The error completion ends in the state that R120 asks for, where ERR_POS can hold the position. -/
theorem State.completeErr_failed (c : ErrorCode) {pos : Nat} (s : State) (h : pos < 2 ^ 32) :
    (s.completeErr c pos).Failed c pos :=
  ⟨s.completeErr_completed c pos, rfl, rfl, Nat.mod_eq_of_lt h⟩

/-- Settles O50: the two arms of a write to CMD; after accept the latched word is the one written, so a
reserved one ends in BAD_OPCODE. -/
theorem commandWriteAcceptsOrIsIgnored : Obligations.CommandWriteAcceptsOrIsIgnored := by
  intro s v
  rw [s.hostAccess_writeCmd v]
  refine ⟨fun hb => ?_, fun hb => ?_, fun hb hv => ?_⟩
  · rw [State.writeCmd_of_busy v hb]
    rfl
  · rw [State.writeCmd_of_idle v hb]
    rfl
  · rw [State.writeCmd_of_idle v hb]
    exact ⟨_, engineStep_of_reserved rfl rfl hv, State.completeErr_failed _ _ (by decide)⟩

/-! ## Reserved offsets and bits, read-only registers (R31) -/

theorem regAt_reserved : ∀ k, k < 8 → regAt (0x20 + 4 * k) = some .reserved := by decide

/-- The reserved bits of STATUS, field by field against the mask. -/
theorem State.statusWord_reserved (s : State) : s.statusWord &&& 0xFFFFF0F0#32 = 0 := by
  change (0#20 ++ s.errCode ++ 0#4 ++ BitVec.ofBool s.werr ++ BitVec.ofBool s.err ++
    BitVec.ofBool s.done ++ BitVec.ofBool s.busy) &&&
      (0xFFFFF#20 ++ 0#4 ++ 0xF#4 ++ 0#1 ++ 0#1 ++ 0#1 ++ 0#1) = 0
  simp only [BitVec.and_append, BitVec.zero_and, BitVec.and_zero]
  rfl

/-- The reserved bits of CFG. -/
theorem State.cfgWord_reserved (s : State) : s.cfgWord &&& 0xFFFFFFF8#32 = 0 := by
  change (0#29 ++ BitVec.ofBool s.cfgTailStrict ++ BitVec.ofBool s.cfgPairStrict ++
    BitVec.ofBool s.cfgIe) &&& (0x1FFFFFFF#29 ++ 0#1 ++ 0#1 ++ 0#1) = 0
  simp only [BitVec.and_append, BitVec.zero_and, BitVec.and_zero]
  rfl

/-- The reserved bits of ARG and RESULT, which hold one byte. -/
theorem byteWord_reserved (b : Byte) : (b.setWidth 32 : Word) &&& 0xFFFFFF00#32 = 0 := by
  rw [BitVec.setWidth_eq_append (by decide : 8 ≤ 32), BitVec.cast_eq]
  change (0#24 ++ b) &&& (0xFFFFFF#24 ++ 0#8) = 0
  simp only [BitVec.and_append, BitVec.zero_and, BitVec.and_zero]
  rfl

/-- RESULT reads as one byte, held or drawn (R29, R49). -/
theorem State.readReg_result (s : State) :
    ∃ b : Byte, (s.readReg .result).readData = .word (b.setWidth 32) := by
  simp only [State.readReg, State.readResult]
  split
  · exact ⟨_, rfl⟩
  · exact ⟨_, rfl⟩

theorem State.writeStatus_masked (s : State) (v : Word) :
    s.writeStatus (v &&& 0x0000000A#32) = s.writeStatus v := by
  simp [State.writeStatus]

theorem State.writeCfg_masked (s : State) (v : Word) :
    s.writeCfg (v &&& 0x00000007#32) = s.writeCfg v := by
  simp [State.writeCfg]

theorem State.writeArg_masked (s : State) (v : Word) :
    s.writeArg (v &&& 0x000000FF#32) = s.writeArg v := by
  have hones : (0x000000FF#32).setWidth 8 = BitVec.allOnes 8 := rfl
  simp only [State.writeArg, BitVec.setWidth_and, hones, BitVec.and_allOnes]

/-- While idle no register write but one to STATUS touches WERR (R23). -/
theorem State.hostAccess_writeAccess_werr {s : State} {k : Nat} (v : Word) (hb : s.busy = false)
    (hk : k ≠ 0x04) : (s.hostAccess (writeAccess k v)).werr = s.werr := by
  have hstatus : ¬ IsStatusClear 3 (writeAccess k v) := by
    rintro ⟨w, -, h⟩
    exact hk (congrArg HostAccess.index h)
  rw [Bool.eq_iff_iff, (s.hostAccess_effect _).werr_iff]
  simp [hb, hstatus]

/-- Settles O57: each register through its offset; a reserved bit meets a 0 in the word read, and in the
mask of a word written. -/
theorem reservedBitsReadZero : Obligations.ReservedBitsReadZero := by
  intro s v
  simp only [State.hostAccess_writeStatus, State.hostAccess_writeCfg, State.hostAccess_writeArg,
    State.writeStatus_masked, State.writeCfg_masked, State.writeArg_masked]
  refine ⟨fun k hk => ⟨?_, ?_⟩, ?_, ?_, ?_, ?_, ?_, trivial, trivial, trivial,
    fun hb k hk => State.hostAccess_writeAccess_werr v hb hk⟩
  · rw [s.hostAccess_readAccess (regAt_reserved k hk)]
    rfl
  · rw [s.hostAccess_writeAccess v (regAt_reserved k hk)]
    rfl
  · rintro offset (rfl | rfl | rfl)
    · exact s.hostAccess_writeAccess (r := .dstLen) v rfl
    · exact s.hostAccess_writeAccess (r := .result) v rfl
    · exact s.hostAccess_writeAccess (r := .errPos) v rfl
  · rw [s.hostAccess_readAccess (r := .status) rfl]
    exact ⟨_, rfl, s.statusWord_reserved⟩
  · rw [s.hostAccess_readAccess (r := .cfg) rfl]
    exact ⟨_, rfl, s.cfgWord_reserved⟩
  · rw [s.hostAccess_readAccess (r := .arg) rfl]
    exact ⟨_, rfl, byteWord_reserved _⟩
  · rw [s.hostAccess_readAccess (r := .result) rfl]
    obtain ⟨b, hr⟩ := s.readReg_result
    exact ⟨_, hr, byteWord_reserved b⟩

end Sys2Proof.Machine

/-! # O51, O48 and O54: which Host accesses are admitted, and what they do while a command runs

An admitted access of a buffer is a read or write of that byte, as a register access is one of its register. -/

namespace Sys2Proof.Machine

/-! ## Accesses of the buffers -/

/-- An 8-bit write below IN_CAP writes that byte of IN_BUF (R42, R46). -/
theorem State.hostAccess_writeInAccess {s : State} {i : Nat} (b : Byte) (hi : i < s.config.inCap) :
    s.hostAccess (writeInAccess i b) = s.writeIn i b := by
  have hbyte : (b.setWidth 32).setWidth 8 = b := BitVec.setWidth_setWidth_of_le b (by decide)
  simp [State.hostAccess, writeInAccess, classify, hi, State.perform, hbyte]

/-- An 8-bit read below IN_CAP reads that byte of IN_BUF (R42, R46). -/
theorem State.hostAccess_readInAccess {s : State} {i : Nat} (hi : i < s.config.inCap) :
    s.hostAccess (readInAccess i) = s.readByte (s.inBuf.read i) := by
  simp [State.hostAccess, readInAccess, classify, hi, State.perform]

/-- An 8-bit read below OUT_CAP reads that byte of OUT_BUF (R42, R46). -/
theorem State.hostAccess_readOutAccess {s : State} {i : Nat} (hi : i < s.config.outCap) :
    s.hostAccess (readOutAccess i) = s.readOut i := by
  simp [State.hostAccess, readOutAccess, classify, hi, State.perform]

theorem State.writeIn_of_busy {s : State} (i : Nat) (b : Byte) (hb : s.busy = true) :
    s.writeIn i b = s.setWerr := by
  simp [State.writeIn, hb]

/-! ## IN_BUF while BUSY (R48) -/

/-- No Host access changes IN_BUF while a command runs: the one write that would is dropped. -/
theorem HostEffect.inBuf_of_busy {s t : State} {a : HostAccess} (h : HostEffect s a t)
    (hb : s.busy = true) : t.inBuf = s.inBuf := by
  cases h
  case storeIn hidle => simp [hb] at hidle
  all_goals rfl

/-- From accept to completion, completion included, only reset changes a byte of IN_BUF. -/
theorem step_inBuf_of_busy {s t : State} (hb : s.busy = true) (hr : ¬ s.ResetIsNext)
    (h : step s = .next t) (a : Nat) : t.inBuf.read a = s.inBuf.read a := by
  obtain ⟨x, -, rfl⟩ | ⟨-, hidle, -⟩ | ⟨-, -, -, hk⟩ | ⟨hn, -⟩ := step_turn_cases h
  · rw [(s.popTurn.hostAccess_effect x).inBuf_of_busy hb, State.popTurn_inBuf]
  · simp [hb] at hidle
  · exact hk.inBuf a
  · exact absurd (s.resetIsNext_iff.2 hn) hr

/-- Settles O51: the dropped write, and the turns one by one. -/
theorem inputIsConstantWhileBusy : Obligations.InputIsConstantWhileBusy :=
  ⟨fun _ i b hb hi => (State.hostAccess_writeInAccess b hi).trans (State.writeIn_of_busy i b hb),
    fun _ _ => step_inBuf_of_busy⟩

/-! ## The access forms of R42 -/

/-- The register map has an entry at each aligned offset up to 0x3C, and at no other (R18, R31, R42). -/
theorem regAt_ne_none_iff (k : Nat) : regAt k ≠ none ↔ k % 4 = 0 ∧ k ≤ 0x3C := by
  unfold regAt
  by_cases hk : k % 4 ≠ 0 ∨ 0x3C < k
  · exact iff_of_false (by simp [hk]) (by omega)
  · rw [if_neg hk]
    refine iff_of_true ?_ (by omega)
    repeat' split
    all_goals simp

/-- The admitted forms, space by space: the register map, the two buffers, and no table. -/
theorem classify_ne_none_iff (c : Config) (a : HostAccess) :
    classify c a ≠ none ↔
      (a.space = .reg ∧ a.width = 32 ∧ a.index % 4 = 0 ∧ a.index ≤ 0x3C) ∨
      (a.space = .inBuf ∧ a.width = 8 ∧ a.index < c.inCap) ∨
      (a.space = .outBuf ∧ a.width = 8 ∧ a.index < c.outCap) := by
  obtain ⟨space, k, w, dir⟩ := a
  have hreg := regAt_ne_none_iff k
  cases space with
  | reg => cases dir <;> simp [classify, ← hreg]
  | inBuf => cases dir <;> simp [classify]
  | outBuf => cases dir <;> simp [classify]
  | alphaRom => simp [classify]
  | ridxRom => simp [classify]

/-- Settles O48: the forms of R42, and the refusing arm of an access. -/
theorem admittedAccessForms : Obligations.AdmittedAccessForms := fun s a =>
  ⟨classify_ne_none_iff s.config a, State.hostAccess_of_refused⟩

/-! ## STATUS and CFG bit by bit (R20 to R25) -/

theorem State.statusWord_flags (s : State) :
    s.statusWord.getLsbD 0 = s.busy ∧ s.statusWord.getLsbD 1 = s.done ∧
    s.statusWord.getLsbD 2 = s.err ∧ s.statusWord.getLsbD 3 = s.werr := by
  simp only [State.statusWord, BitVec.getLsbD_append]
  simp

/-- ERRCODE between the two reserved fields of STATUS, each the low end of what is left once the fields
below it are taken off. -/
theorem State.statusWord_fields (s : State) :
    s.statusWord.extractLsb' 4 4 = 0#4 ∧ s.statusWord.extractLsb' 8 4 = s.errCode ∧
    s.statusWord.extractLsb' 12 20 = 0#20 := by
  simp only [State.statusWord, BitVec.extractLsb'_append_eq_of_le, Nat.one_le_ofNat, Nat.reduceSub,
    Nat.reduceLeDiff, Nat.le_refl]
  exact ⟨BitVec.extractLsb'_append_eq_right, BitVec.extractLsb'_append_eq_right,
    BitVec.extractLsb'_eq_self⟩

theorem State.cfgWord_flags (s : State) :
    s.cfgWord.getLsbD 0 = s.cfgIe ∧ s.cfgWord.getLsbD 1 = s.cfgPairStrict ∧
    s.cfgWord.getLsbD 2 = s.cfgTailStrict := by
  simp only [State.cfgWord, BitVec.getLsbD_append]
  simp

theorem State.cfgWord_reserved_field (s : State) : s.cfgWord.extractLsb' 3 29 = 0#29 := by
  simp only [State.cfgWord, BitVec.extractLsb'_append_eq_of_le, Nat.one_le_ofNat, Nat.reduceSub,
    Nat.le_refl, BitVec.extractLsb'_eq_self]

/-- A read of STATUS shows the four flags, ERRCODE, and 0 in every reserved bit (R20 to R24). -/
theorem State.readStatus_bits (s : State) :
    ∃ st : Word, (s.hostAccess (readAccess 0x04)).readData = .word st ∧
      st.getLsbD 0 = s.busy ∧ st.getLsbD 1 = s.done ∧ st.getLsbD 2 = s.err ∧
      st.getLsbD 3 = s.werr ∧ st.extractLsb' 4 4 = 0#4 ∧ st.extractLsb' 8 4 = s.errCode ∧
      st.extractLsb' 12 20 = 0#20 := by
  rw [s.hostAccess_readAccess (r := .status) rfl]
  obtain ⟨hbusy, hdone, herr, hwerr⟩ := s.statusWord_flags
  exact ⟨_, rfl, hbusy, hdone, herr, hwerr, s.statusWord_fields⟩

/-- A read of CFG shows its three bits, and 0 in every reserved bit (R25). -/
theorem State.readCfg_bits (s : State) :
    ∃ cf : Word, (s.hostAccess (readAccess 0x08)).readData = .word cf ∧
      cf.getLsbD 0 = s.cfgIe ∧ cf.getLsbD 1 = s.cfgPairStrict ∧ cf.getLsbD 2 = s.cfgTailStrict ∧
      cf.extractLsb' 3 29 = 0#29 := by
  rw [s.hostAccess_readAccess (r := .cfg) rfl]
  obtain ⟨hie, hps, hts⟩ := s.cfgWord_flags
  exact ⟨_, rfl, hie, hps, hts, s.cfgWord_reserved_field⟩

/-! ## Reads while BUSY (R49) -/

theorem State.readResult_of_busy {s : State} (held drawn : Word) (hb : s.busy = true) :
    s.readResult held drawn = s.answerDraw (.word drawn) := by
  simp [State.readResult, hb]

theorem State.readOut_of_busy {s : State} (i : Nat) (hb : s.busy = true) :
    s.readOut i = s.answerDraw (.byte (Config.drawByte s.draws)) := by
  simp [State.readOut, State.readByte, hb]

theorem State.hostAccess_readDstLen_of_busy {s : State} (hb : s.busy = true) :
    s.hostAccess (readAccess 0x10) = s.answerDraw (.word (Config.drawWord s.draws)) :=
  (s.hostAccess_readAccess (r := .dstLen) rfl).trans (State.readResult_of_busy _ _ hb)

theorem State.hostAccess_readErrPos_of_busy {s : State} (hb : s.busy = true) :
    s.hostAccess (readAccess 0x1C) = s.answerDraw (.word (Config.drawWord s.draws)) :=
  (s.hostAccess_readAccess (r := .errPos) rfl).trans (State.readResult_of_busy _ _ hb)

theorem State.hostAccess_readResult_of_busy {s : State} (hb : s.busy = true) :
    s.hostAccess (readAccess 0x18) =
      s.answerDraw (.word ((Config.drawByte s.draws).setWidth 32)) :=
  (s.hostAccess_readAccess (r := .result) rfl).trans (State.readResult_of_busy _ _ hb)

/-- Settles O54: the live registers and IN_BUF answer what they hold, as they do while idle; only the
results and OUT_BUF look at BUSY, and draw. -/
theorem readsWhileBusy : Obligations.ReadsWhileBusy := by
  intro s hb
  refine ⟨hb ▸ s.readStatus_bits, s.readCfg_bits, ?srcLen, ?arg, ?cmd, fun k hk => ?reserved,
    fun i b hi hheld => ?inHeld, fun i hi hnone => ?inNone, ?lengthAndPosition, ?result, ?resultDraws,
    fun i hi => ?out⟩
  case srcLen => rw [s.hostAccess_readAccess (r := .srcLen) rfl]; rfl
  case arg => rw [s.hostAccess_readAccess (r := .arg) rfl]; rfl
  case cmd => rw [s.hostAccess_readAccess (r := .cmd) rfl]; rfl
  case reserved => rw [s.hostAccess_readAccess (regAt_reserved k hk)]; rfl
  case inHeld => rw [State.hostAccess_readInAccess hi, hheld]; rfl
  case inNone => rw [State.hostAccess_readInAccess hi, hnone]; exact ⟨rfl, rfl⟩
  case lengthAndPosition =>
    rintro offset (rfl | rfl)
    · rw [State.hostAccess_readDstLen_of_busy hb]; exact ⟨rfl, rfl⟩
    · rw [State.hostAccess_readErrPos_of_busy hb]; exact ⟨rfl, rfl⟩
  case result => rw [State.hostAccess_readResult_of_busy hb]; rfl
  case resultDraws => rw [State.hostAccess_readResult_of_busy hb]; rfl
  case out => rw [State.hostAccess_readOutAccess hi, State.readOut_of_busy i hb]; exact ⟨rfl, rfl⟩

end Sys2Proof.Machine

/-! # O1 and O6: each command word selects its command exactly, and the Engine's dispatch has an outcome
for every latched word. -/

namespace Sys2Proof.Machine

/-! ## Command words (R58, R59) -/

theorem decode_encode (i : Instr) : decode (encode i) = .command i := by
  cases i <;> rfl

/-- A command is selected by its own word and by no other (R59). -/
theorem decode_eq_command_iff {w : Word} {i : Instr} : decode w = .command i ↔ w = encode i :=
  ⟨decode_eq_command, fun h => h ▸ decode_encode i⟩

/-- The words of R59 written out: a word that is none of the four is no command's. -/
theorem ne_encode_of_ne_words {w : Word} (henc : w ≠ 0x00000001#32) (hdec : w ≠ 0x00000002#32)
    (hsym : w ≠ 0x00000003#32) (hidx : w ≠ 0x00000004#32) : ∀ i, w ≠ encode i
  | .enc => henc
  | .dec => hdec
  | .sym => hsym
  | .idx => hidx

/-! ## The dispatch (R60) -/

/-- The Engine runs the command whose word is latched. -/
theorem engineStep_of_encode {s : State} {l : Latch} {i : Instr} (hb : s.busy = true)
    (hl : s.latch = some l) (hop : l.op = encode i) : engineStep s = exec i s := by
  simp [engineStep, hb, hl, execWord, hop, decode_encode]

/-- The Engine completes a latched reserved word in an error completion with BAD_OPCODE at position 0
(R59, R116). -/
theorem engineStep_failed_of_reserved {s : State} {l : Latch} (hb : s.busy = true)
    (hl : s.latch = some l) (h : ∀ i, l.op ≠ encode i) :
    ∃ t, engineStep s = .next t ∧ t.Failed .badOpcode 0 :=
  ⟨_, engineStep_of_reserved hb hl h, State.completeErr_failed _ _ (by decide)⟩

/-- Every command has an outcome on every latched operand. -/
theorem exec_of_latched {s : State} {l : Latch} (i : Instr) (hl : s.latch = some l) :
    ∃ t, exec i s = .next t := by
  cases i with
  | enc => exact ⟨_, withLatch_some _ hl⟩
  | dec => exact ⟨_, withLatch_some _ hl⟩
  | sym => exact ⟨_, withLatch_some _ hl⟩
  | idx => exact ⟨_, withLatch_some _ hl⟩

/-- Every latched word has an outcome: a command's by `exec`, a reserved one's by BAD_OPCODE. -/
theorem engineStep_of_latched {s : State} {l : Latch} (hb : s.busy = true) (hl : s.latch = some l) :
    ∃ t, engineStep s = .next t := by
  by_cases h : ∃ i, l.op = encode i
  · obtain ⟨i, hop⟩ := h
    rw [engineStep_of_encode hb hl hop]
    exact exec_of_latched i hl
  · exact ⟨_, engineStep_of_reserved hb hl (not_exists.mp h)⟩

/-- Settles O6: the arm of each word, the BAD_OPCODE arm for the rest, and one completion in every arm. -/
theorem dispatchIsTotal : Obligations.DispatchIsTotal := by
  intro s l hb hl
  refine ⟨engineStep_of_encode (i := .enc) hb hl, engineStep_of_encode (i := .dec) hb hl,
    engineStep_of_encode (i := .sym) hb hl, engineStep_of_encode (i := .idx) hb hl,
    fun henc hdec hsym hidx =>
      engineStep_failed_of_reserved hb hl (ne_encode_of_ne_words henc hdec hsym hidx), ?total⟩
  case total =>
    obtain ⟨t, ht⟩ := engineStep_of_latched hb hl
    exact ⟨t, ht, engineStep_completes hb ht⟩

/-- Settles O1: the opcode map read both ways, and a word outside it is reserved in the decoder and in the
Engine's turn. -/
theorem commandWordsSelectExactly : Obligations.CommandWordsSelectExactly := by
  refine ⟨fun _ => decode_eq_command_iff, fun _ => decode_eq_command_iff,
    fun _ => decode_eq_command_iff, fun _ => decode_eq_command_iff, fun w henc hdec hsym hidx => ?_⟩
  have hw : ∀ i, w ≠ encode i := ne_encode_of_ne_words henc hdec hsym hidx
  refine ⟨decode_reserved_of_ne_encode hw, fun s l hb hl hop => ?_⟩
  subst hop
  exact engineStep_failed_of_reserved hb hl hw

end Sys2Proof.Machine

/-! # O7: the alphabet of R72. -/

namespace Sys2Proof

/-! ## Entry by entry -/

/-- The closed form of R72, as numbers: no entry wraps around in its byte. -/
theorem Config.toNat_r72Symbol {i : Nat} (hi : i ≤ 90) :
    (Config.r72Symbol i).toNat = if i = 0 then 0x21 else if i ≤ 61 then 0x22 + i else 0x23 + i := by
  unfold Config.r72Symbol
  split
  · rfl
  · split <;> exact Nat.mod_eq_of_lt (by omega)

theorem Config.getElem?_r72Alphabet {i : Nat} (hi : i ≤ 90) :
    Config.r72Alphabet[i]? = some (Config.r72Symbol i) := by
  have hlt : i < 91 := by omega
  simp [Config.r72Alphabet, hlt]

/-- The bytes between the two holes, 0x22 and 0x60, have the indices 1 to 61. -/
theorem Config.getElem?_r72Alphabet_low {b : Byte} (hlo : 0x23 ≤ b.toNat) (hhi : b.toNat ≤ 0x5F) :
    Config.r72Alphabet[b.toNat - 0x22]? = some b := by
  rw [Config.getElem?_r72Alphabet (by omega), Option.some_inj, ← BitVec.toNat_inj,
    Config.toNat_r72Symbol (by omega), if_neg (by omega), if_pos (by omega)]
  omega

/-- The bytes above 0x60 have the indices 62 to 90. -/
theorem Config.getElem?_r72Alphabet_high {b : Byte} (hlo : 0x61 ≤ b.toNat) (hhi : b.toNat ≤ 0x7D) :
    Config.r72Alphabet[b.toNat - 0x23]? = some b := by
  rw [Config.getElem?_r72Alphabet (by omega), Option.some_inj, ← BitVec.toNat_inj,
    Config.toNat_r72Symbol (by omega), if_neg (by omega), if_neg (by omega)]
  omega

/-! ## As a whole -/

/-- The alphabet of R72 is `[0x21, 0x7D]` without the two holes: an entry misses them by the closed form,
and every other byte of the range has an index on its side of 0x60. -/
theorem Config.mem_r72Alphabet_iff (b : Byte) :
    b ∈ Config.r72Alphabet ↔ 0x21 ≤ b.toNat ∧ b.toNat ≤ 0x7D ∧ b ≠ 0x22#8 ∧ b ≠ 0x60#8 := by
  simp only [ne_eq, ← BitVec.toNat_inj, BitVec.toNat_ofNat, Nat.reducePow, Nat.reduceMod]
  constructor
  · intro hb
    obtain ⟨i, hi, rfl⟩ := List.mem_map.1 hb
    rw [List.mem_range] at hi
    rw [Config.toNat_r72Symbol (by omega)]
    repeat' split
    all_goals omega
  · rintro ⟨hlo, hhi, hquote, htick⟩
    rcases (by omega : b.toNat = 0x21 ∨ (0x23 ≤ b.toNat ∧ b.toNat ≤ 0x5F) ∨ 0x61 ≤ b.toNat) with
      hb | ⟨hlow, hlow'⟩ | hhigh
    · have hbang : b = 0x21#8 := BitVec.eq_of_toNat_eq hb
      exact hbang ▸ List.mem_of_getElem? (Config.getElem?_r72Alphabet (i := 0) (by decide))
    · exact List.mem_of_getElem? (Config.getElem?_r72Alphabet_low hlow hlow')
    · exact List.mem_of_getElem? (Config.getElem?_r72Alphabet_high hhigh hhi)

theorem Config.r72Alphabet_ascending :
    Config.r72Alphabet.Pairwise (fun a b => a.toNat < b.toNat) := by
  refine List.pairwise_map.2 (List.pairwise_lt_range.imp_of_mem fun {i j} hi hj hij => ?_)
  rw [List.mem_range] at hi hj
  rw [Config.toNat_r72Symbol (by omega), Config.toNat_r72Symbol (by omega)]
  repeat' split
  all_goals omega

/-- R72 meets R8: its symbols are distinct because they ascend. -/
theorem Config.r72Alphabet_wf : Alphabet.wf Config.r72Alphabet := by
  refine ⟨by simp [Config.r72Alphabet], ?distinct, fun b hb => ?printable, rfl⟩
  case distinct =>
    refine Config.r72Alphabet_ascending.imp fun hlt heq => ?_
    exact absurd (congrArg BitVec.toNat heq) (Nat.ne_of_lt hlt)
  case printable =>
    obtain ⟨hlo, hhi, hquote, -⟩ := (Config.mem_r72Alphabet_iff b).1 hb
    exact ⟨hlo, hhi, hquote⟩

/-- Settles O7: membership, order, and the two branches of the closed form. -/
theorem hardwareAlphabetTable : Obligations.HardwareAlphabetTable := by
  refine ⟨rfl, Config.r72Alphabet_wf, Config.mem_r72Alphabet_iff, Config.r72Alphabet_ascending,
    Config.getElem?_r72Alphabet (by decide), fun i hlo hhi => ?low, fun i hlo hhi => ?high⟩
  case low =>
    rw [Config.getElem?_r72Alphabet (by omega), Config.r72Symbol, if_neg (by omega), if_pos hhi]
  case high =>
    rw [Config.getElem?_r72Alphabet hhi, Config.r72Symbol, if_neg (by omega), if_neg (by omega)]

end Sys2Proof

/-! # O8: the two tables, read under any admissible alphabet

Everything that later proofs ask of the tables follows from `ridxRom_of_getElem?`, what the reverse table
holds at a symbol, and `ridxRom_of_not_mem`, what it holds elsewhere. -/

namespace Sys2Proof.Machine

/-! ## ALPHA_ROM (R69, R74) -/

/-- An entry of an admissible alphabet is one of the 91. -/
theorem le_of_getElem?_alphabet {α : List Byte} {b : Byte} {i : Nat} (h : Alphabet.wf α)
    (hi : α[i]? = some b) : i ≤ 90 := by
  obtain ⟨hlen, -⟩ := h
  obtain ⟨hlt, -⟩ := List.getElem?_eq_some_iff.1 hi
  omega

theorem symbolAt_of_getElem? {α : List Byte} {b : Byte} {i : Nat} (hi : α[i]? = some b) :
    symbolAt α i = b := by
  rw [symbolAt, List.getD_eq_getElem?_getD, hi, Option.getD_some]

theorem getElem?_eq_symbolAt {α : List Byte} {i : Nat} (h : Alphabet.wf α) (hi : i ≤ 90) :
    α[i]? = some (symbolAt α i) := by
  obtain ⟨hlen, -⟩ := h
  have hget : α[i]? = some (α[i]'(by omega)) := List.getElem?_eq_getElem _
  rw [hget, symbolAt_of_getElem? hget]

theorem symbolAt_mem {α : List Byte} {i : Nat} (h : Alphabet.wf α) (hi : i ≤ 90) : symbolAt α i ∈ α :=
  List.mem_of_getElem? (getElem?_eq_symbolAt h hi)

theorem symbolAt_r72Alphabet {i : Nat} (hi : i ≤ 90) :
    symbolAt Config.r72Alphabet i = Config.r72Symbol i :=
  symbolAt_of_getElem? (Config.getElem?_r72Alphabet hi)

/-- R70: no admissible alphabet holds a byte outside `[0x21, 0x7D]`, or 0x22. -/
theorem not_mem_alphabet {α : List Byte} {b : Byte} (h : Alphabet.wf α)
    (hb : b.toNat < 0x21 ∨ 0x7D < b.toNat ∨ b = 0x22#8) : b ∉ α := by
  intro hmem
  obtain ⟨-, -, hrange, -⟩ := h
  obtain ⟨hlo, hhi, hquote⟩ := hrange b hmem
  rcases hb with hbelow | habove | heq
  · omega
  · omega
  · exact hquote heq

/-! ## RIDX_ROM (R71, R73) -/

/-- The reverse table at a symbol: the symbols are distinct, so the first index found is the only one. -/
theorem ridxRom_of_getElem? {α : List Byte} {b : Byte} {i : Nat} (h : Alphabet.wf α)
    (hi : α[i]? = some b) : ridxRom α b = BitVec.ofNat 8 i := by
  obtain ⟨-, hdistinct, -⟩ := h
  obtain ⟨hlt, hget⟩ := List.getElem?_eq_some_iff.1 hi
  have hidx : α.idxOf? b = some i := by
    refine List.idxOf?_eq_some_iff.2 ⟨hlt, hget, fun j hj heq => Nat.ne_of_lt hj ?_⟩
    exact (hdistinct.getElem_inj_iff).1 (heq.trans hget.symm)
  simp only [ridxRom, hidx]

theorem ridxRom_of_not_mem {α : List Byte} {b : Byte} (hb : b ∉ α) : ridxRom α b = 0xFF#8 := by
  simp only [ridxRom, List.idxOf?_eq_none_iff.2 hb, invalidEntry]

theorem toNat_ridxRom_of_getElem? {α : List Byte} {b : Byte} {i : Nat} (h : Alphabet.wf α)
    (hi : α[i]? = some b) : (ridxRom α b).toNat = i := by
  have hle := le_of_getElem?_alphabet h hi
  rw [ridxRom_of_getElem? h hi]
  exact Nat.mod_eq_of_lt (by omega)

/-! ## `index_of` (R75) -/

/-- At a symbol the entry is at most 90, so it is not the sentinel. -/
theorem indexOf_of_getElem? {α : List Byte} {b : Byte} {i : Nat} (h : Alphabet.wf α)
    (hi : α[i]? = some b) : indexOf α b = some i := by
  have hle := le_of_getElem?_alphabet h hi
  have hentry := toNat_ridxRom_of_getElem? h hi
  have hvalid : ridxRom α b ≠ invalidEntry := by
    intro hsentinel
    have : i = 0xFF := by rw [← hentry, hsentinel]; rfl
    omega
  rw [indexOf, if_neg hvalid, hentry]

theorem indexOf_of_not_mem {α : List Byte} {b : Byte} (hb : b ∉ α) : indexOf α b = none :=
  if_pos (ridxRom_of_not_mem hb)

/-- `index_of` finds exactly the entries of the alphabet. -/
theorem indexOf_eq_some_iff {α : List Byte} {b : Byte} {i : Nat} (h : Alphabet.wf α) :
    indexOf α b = some i ↔ α[i]? = some b := by
  refine ⟨fun hi => ?_, indexOf_of_getElem? h⟩
  by_cases hb : b ∈ α
  · obtain ⟨j, hj⟩ := List.mem_iff_getElem?.1 hb
    have hij : some j = some i := (indexOf_of_getElem? h hj).symm.trans hi
    rwa [← Option.some_inj.1 hij]
  · simp [indexOf_of_not_mem hb] at hi

theorem indexOf_eq_none_iff {α : List Byte} {b : Byte} (h : Alphabet.wf α) :
    indexOf α b = none ↔ b ∉ α := by
  refine ⟨fun hnone hb => ?_, indexOf_of_not_mem⟩
  obtain ⟨i, hi⟩ := List.mem_iff_getElem?.1 hb
  simp [indexOf_of_getElem? h hi] at hnone

/-- Settles O8: a byte is an entry or off the alphabet; under R72 the closed form gives its index. -/
theorem reverseTable : Obligations.ReverseTable := by
  refine ⟨fun α b h => ⟨fun i => ridxRom_of_getElem? h, ridxRom_of_not_mem, ?total,
    indexOf_eq_none_iff h, fun hb => indexOf_of_not_mem (not_mem_alphabet h hb),
    fun hb => indexOf_of_not_mem (not_mem_alphabet h (.inr (.inl (by omega))))⟩,
    fun b => ⟨?bang, fun hlo hhi => ?low, fun hlo hhi => ?high, fun hb => ?hole⟩⟩
  case total =>
    cases hi : indexOf α b with
    | none => exact .inr rfl
    | some i =>
      have hget := (indexOf_eq_some_iff h).1 hi
      exact .inl ⟨i, le_of_getElem?_alphabet h hget, rfl, hget⟩
  case bang =>
    rintro rfl
    exact ridxRom_of_getElem? Config.r72Alphabet_wf (Config.getElem?_r72Alphabet (i := 0) (by decide))
  case low =>
    exact toNat_ridxRom_of_getElem? Config.r72Alphabet_wf (Config.getElem?_r72Alphabet_low hlo hhi)
  case high =>
    exact toNat_ridxRom_of_getElem? Config.r72Alphabet_wf (Config.getElem?_r72Alphabet_high hlo hhi)
  case hole =>
    refine ridxRom_of_not_mem fun hmem => ?_
    obtain ⟨hlo, hhi, hquote, htick⟩ := (Config.mem_r72Alphabet_iff b).1 hmem
    rcases hb with hbelow | heq | heq | habove
    · omega
    · exact hquote heq
    · exact htick heq
    · omega

end Sys2Proof.Machine

/-! # O10, O11 and O9: the commands SYM and IDX, each and one after the other. -/

namespace Sys2Proof.Machine

/-! ## The completions of a lookup -/

theorem State.completeByte_succeeded (r : Byte) (s : State) : (s.completeByte r).Succeeded :=
  ⟨s.completeByte_completed r, rfl, rfl, rfl⟩

theorem State.completeByte_keptByLookup (r : Byte) (s : State) : s.KeptByLookup (s.completeByte r) :=
  ⟨rfl, fun _ => rfl, rfl, s.completeByte_keepsOthers r⟩

/-- An error that does not clear the output leaves what a lookup leaves. -/
theorem State.completeErr_keptByLookup {c : ErrorCode} (pos : Nat) (s : State)
    (hc : c.clearsOutput = false) : s.KeptByLookup (s.completeErr c pos) :=
  ⟨by simp [hc], fun _ => by simp [hc], rfl, s.completeErr_keepsOthers c pos⟩

/-- The operand of SYM and IDX is latched at accept (R37, R61). -/
theorem State.accept_latches_arg (s : State) (v : Word) :
    ∃ l, (s.accept v).latch = some l ∧ l.arg = s.arg :=
  ⟨_, rfl, rfl⟩

/-! ## SYM (R76) -/

theorem exec_sym_of_le {s : State} {l : Latch} (hl : s.latch = some l) (hi : l.arg.toNat ≤ 90) :
    exec .sym s = .next (s.completeByte (symbolAt s.config.alphabet l.arg.toNat)) :=
  (withLatch_some _ hl).trans (congrArg _ (if_neg (Nat.not_lt.2 hi)))

theorem exec_sym_of_lt {s : State} {l : Latch} (hl : s.latch = some l) (hi : 90 < l.arg.toNat) :
    exec .sym s = .next (s.completeErr .badArg 0) :=
  (withLatch_some _ hl).trans (congrArg _ (if_pos hi))

/-- Under R72 a successful SYM gives the closed form of its index. -/
theorem exec_sym_result_r72 {s t : State} {l : Latch} (hl : s.latch = some l)
    (halpha : s.config.alphabet = Config.r72Alphabet) (h : exec .sym s = .next t)
    (hi : l.arg.toNat ≤ 90) : t.result = Config.r72Symbol l.arg.toNat := by
  rw [exec_sym_of_le hl hi, halpha, symbolAt_r72Alphabet hi] at h
  cases h
  rfl

/-- Settles O10: the two arms of SYM; the corner cases are entries of R72 and one index above 90. -/
theorem symLooksUpSymbol : Obligations.SymLooksUpSymbol := by
  refine ⟨rfl, State.accept_latches_arg, fun s l hwf hl =>
    ⟨fun hi => ?symbol, fun hi => ?badArg, fun halpha => ?corners⟩⟩
  case symbol =>
    obtain ⟨-, -, -, hα⟩ := hwf
    exact ⟨_, exec_sym_of_le hl hi, State.completeByte_succeeded .., getElem?_eq_symbolAt hα hi,
      State.completeByte_keptByLookup ..⟩
  case badArg =>
    exact ⟨_, exec_sym_of_lt hl hi, State.completeErr_failed _ _ (by decide), rfl,
      State.completeErr_keptByLookup _ _ rfl⟩
  case corners =>
    obtain ⟨t, ht⟩ := exec_of_latched .sym hl
    have hsymbol := exec_sym_result_r72 hl halpha ht
    refine ⟨t, ht, fun ha => ?_, fun ha => ?_, fun ha => ?_, fun ha => ?_, fun ha => ?above⟩
    case above =>
      rw [exec_sym_of_lt hl (by rw [ha]; decide)] at ht
      cases ht
      exact ⟨rfl, rfl⟩
    all_goals
      rw [ha] at hsymbol
      exact hsymbol (by decide)

/-! ## IDX (R78) -/

theorem exec_idx_of_latched {s : State} {l : Latch} (hl : s.latch = some l) :
    exec .idx s = .next (s.completeByte (ridxRom s.config.alphabet l.arg)) :=
  withLatch_some _ hl

/-- Settles O11: RESULT is the entry of the reverse table, whatever the operand. -/
theorem idxLooksUpIndex : Obligations.IdxLooksUpIndex := by
  refine ⟨rfl, State.accept_latches_arg, fun s l hwf hl => ?_⟩
  obtain ⟨-, -, -, hα⟩ := hwf
  refine ⟨_, exec_idx_of_latched hl, State.completeByte_succeeded .., State.completeByte_keptByLookup ..,
    fun i => toNat_ridxRom_of_getElem? hα, ridxRom_of_not_mem, fun halpha => ?corners⟩
  case corners =>
    rw [State.completeByte_result, halpha]
    refine ⟨?_, ?_, ?_, ?_, ?_, fun ha => ridxRom_of_not_mem ?invalid⟩
    case invalid =>
      rw [Config.mem_r72Alphabet_iff]
      revert ha
      generalize l.arg = b
      revert b
      decide
    all_goals
      intro ha
      rw [ha]
      exact ridxRom_of_getElem? Config.r72Alphabet_wf (Config.getElem?_r72Alphabet (by decide))

/-! ## SYM and then IDX (R77) -/

/-- Settles O9: `symbol_at` and `index_of` are inverse to each other, so what IDX reads at the RESULT of
SYM is the operand of SYM. -/
theorem alphabetBijection : Obligations.AlphabetBijection := by
  refine ⟨fun α h => ⟨fun i hi => indexOf_of_getElem? h (getElem?_eq_symbolAt h hi),
    fun b i hi => symbolAt_of_getElem? ((indexOf_eq_some_iff h).1 hi)⟩, ?commands⟩
  case commands =>
    intro s t u l m hwf hl hi ht hconfig hm harg
    obtain ⟨-, -, -, hα⟩ := hwf
    rw [exec_sym_of_le hl hi] at ht
    cases ht
    refine ⟨_, exec_idx_of_latched hm, BitVec.eq_of_toNat_eq ?_⟩
    rw [State.completeByte_result, hconfig, harg]
    exact toNat_ridxRom_of_getElem? hα (getElem?_eq_symbolAt hα hi)

end Sys2Proof.Machine

/-! # O19: what ENC and SYM write is in the alphabet. -/

namespace Sys2Proof.Machine

/-! ## The symbols of a chunk (R82 to R84) -/

/-- Both indices of a 13-bit value are below 91, since `2 ^ 13 ≤ 91 * 91`. -/
theorem mem_of_mem_pairSymbols {α : List Byte} {T : List Bool} {b : Byte} (h : Alphabet.wf α)
    (hT : T.length ≤ 13) (hb : b ∈ pairSymbols α (val T)) : b ∈ α := by
  have hval : val T < 2 ^ 13 := (val_lt T).trans_le (Nat.pow_le_pow_right (by decide) hT)
  simp only [pairSymbols, alphabetSize, List.mem_cons, List.not_mem_nil, or_false] at hb
  obtain rfl | rfl := hb
  · exact symbolAt_mem h (by omega)
  · exact symbolAt_mem h (by omega)

/-- The padded final chunk is a value of 6 or of 13 bits. -/
theorem mem_of_mem_finalGroup {α : List Byte} {T : List Bool} {b : Byte} (h : Alphabet.wf α)
    (hT : T.length ≤ 13) (hb : b ∈ finalGroup α T) : b ∈ α := by
  unfold finalGroup at hb
  split at hb
  · simp at hb
  · split at hb
    · have hval := val_lt (T ++ zeros (6 - T.length))
      have hlen : (T ++ zeros (6 - T.length)).length = 6 := by
        rw [List.length_append, length_zeros]
        omega
      rw [hlen] at hval
      rw [List.mem_singleton.1 hb]
      exact symbolAt_mem h (by omega)
    · exact mem_of_mem_pairSymbols h (by rw [List.length_append, length_zeros]; omega) hb

theorem length_slice_le (S : List Bool) (a n : Nat) : (slice S a n).length ≤ n :=
  List.length_take_le ..

/-- R79: `enc` gives symbols only, whatever its input. -/
theorem mem_of_mem_enc {α B : List Byte} {b : Byte} (h : Alphabet.wf α) (hb : b ∈ enc α B) : b ∈ α := by
  obtain hpair | hfinal := List.mem_append.1 hb
  · obtain ⟨j, -, hj⟩ := List.mem_flatMap.1 hpair
    exact mem_of_mem_pairSymbols h (length_slice_le ..) hj
  · have hlen : (finalChunk (bitSequence B)).length ≤ _ := length_slice_le ..
    exact mem_of_mem_finalGroup h (by omega) hfinal

/-! ## In the commands -/

/-- A byte that ENC leaves in OUT_BUF is one of `enc`'s: an error leaves none. -/
theorem mem_alphabet_of_exec_enc {s t : State} {a : Nat} {b : Byte} (hwf : s.config.wf)
    (h : exec .enc s = .next t) (hb : t.outBuf.read a = some b) : b ∈ s.config.alphabet := by
  obtain ⟨-, -, -, hα⟩ := hwf
  obtain ⟨l, -, ⟨-, rfl⟩ | ⟨-, rfl⟩⟩ := execEnc_cases h
  · simp [ErrorCode.clearsOutput] at hb
  · rw [State.completeBytes_outBuf, Memory.read_ofBytes] at hb
    exact mem_of_mem_enc hα (List.mem_of_getElem? hb)

/-- The RESULT of a successful SYM is an entry of the alphabet. -/
theorem mem_alphabet_of_exec_sym {s t : State} (hwf : s.config.wf) (h : exec .sym s = .next t)
    (herr : t.err = false) : t.result ∈ s.config.alphabet := by
  obtain ⟨-, -, -, hα⟩ := hwf
  obtain ⟨l, -, ⟨-, rfl⟩ | ⟨hi, rfl⟩⟩ := execSym_cases h
  · simp at herr
  · exact symbolAt_mem hα hi

/-- Settles O19: both commands write members, and under R72 membership is the range without its holes. -/
theorem alphabetClosure : Obligations.AlphabetClosure := by
  refine ⟨fun s t hwf h a b hb => ?enc, fun s t hwf h herr => ?sym⟩
  case enc =>
    have hmem := mem_alphabet_of_exec_enc hwf h hb
    exact ⟨hmem, fun halpha => (Config.mem_r72Alphabet_iff b).1 (halpha ▸ hmem)⟩
  case sym =>
    have hmem := mem_alphabet_of_exec_sym hwf h herr
    exact ⟨hmem, fun halpha => (Config.mem_r72Alphabet_iff _).1 (halpha ▸ hmem)⟩

end Sys2Proof.Machine

/-! # O12 and O13: the bits of a buffer, and the chunks that cut them

`chunk_induction` is the shape of every later proof about the encoder: a bit sequence is fewer than 13
bits, or 13 bits and then a sequence. -/

namespace Sys2Proof.Machine

/-! ## The bits of a buffer (R44, R80) -/

@[simp] theorem length_bitSequence (B : List Byte) : (bitSequence B).length = 8 * B.length := by
  induction B with
  | nil => rfl
  | cons b B ih =>
    rw [bitSequence_cons, List.length_append, length_bits8, ih, List.length_cons]
    omega

theorem getElem?_bits8 (b : Byte) {p : Nat} (hp : p < 8) : (bits8 b)[p]? = some (b.getMsbD p) := by
  simp [bits8, bitsN, hp, BitVec.getMsbD, BitVec.getLsbD]

theorem getElem?_bitSequence (B : List Byte) (p : Nat) :
    (bitSequence B)[p]? = B[p / 8]?.map (fun b => b.getMsbD (p % 8)) := by
  induction B generalizing p with
  | nil => rfl
  | cons b B ih =>
    rw [bitSequence_cons]
    by_cases hp : p < 8
    · rw [List.getElem?_append_left (by simpa using hp), getElem?_bits8 b hp, Nat.div_eq_of_lt hp,
        Nat.mod_eq_of_lt hp]
      rfl
    · have hdiv : p / 8 = (p - 8) / 8 + 1 := by omega
      have hmod : p % 8 = (p - 8) % 8 := by omega
      rw [List.getElem?_append_right (by simpa using hp), length_bits8, ih, hdiv, hmod,
        List.getElem?_cons_succ]

/-- Settles O12: position by position, eight positions a byte. -/
theorem bitSequenceIsMsbFirst : Obligations.BitSequenceIsMsbFirst :=
  fun B => ⟨length_bitSequence B, fun p _ => getElem?_bitSequence B p⟩

/-! ## Slices (R12) -/

theorem length_slice {S : List Bool} {a n : Nat} (h : a + n ≤ S.length) : (slice S a n).length = n := by
  rw [slice, List.length_take, List.length_drop]
  omega

theorem slice_append_zero (C S : List Bool) : slice (C ++ S) 0 C.length = C := by
  simp [slice]

theorem slice_append_add (C S : List Bool) (a n : Nat) :
    slice (C ++ S) (C.length + a) n = slice S a n := by
  simp [slice]

/-! ## Chunks (R81) -/

theorem chunk_induction {motive : List Bool → Prop} (short : ∀ T, T.length < 13 → motive T)
    (full : ∀ C S, C.length = 13 → motive S → motive (C ++ S)) (S : List Bool) : motive S := by
  by_cases h : S.length < 13
  · exact short S h
  · rw [← List.take_append_drop 13 S]
    exact full _ _ (by rw [List.length_take]; omega) (chunk_induction short full (S.drop 13))
termination_by S.length
decreasing_by rw [List.length_drop]; omega

theorem length_fullChunk {S : List Bool} {j : Nat} (hj : j < S.length / 13) :
    (fullChunk S j).length = 13 :=
  length_slice (by omega)

theorem length_finalChunk (S : List Bool) : (finalChunk S).length = S.length % 13 :=
  length_slice (by omega)

theorem finalChunk_of_short {T : List Bool} (hT : T.length < 13) : finalChunk T = T := by
  rw [finalChunk, Nat.div_eq_of_lt hT, Nat.mod_eq_of_lt hT]
  simp [slice]

theorem length_append_div_chunk {C : List Bool} (hC : C.length = 13) (S : List Bool) :
    (C ++ S).length / 13 = S.length / 13 + 1 := by
  rw [List.length_append, hC]
  omega

theorem fullChunk_append_zero {C : List Bool} (hC : C.length = 13) (S : List Bool) :
    fullChunk (C ++ S) 0 = C := by
  rw [fullChunk, ← hC]
  exact slice_append_zero C S

theorem fullChunk_append_succ {C : List Bool} (hC : C.length = 13) (S : List Bool) (j : Nat) :
    fullChunk (C ++ S) (j + 1) = fullChunk S j := by
  rw [fullChunk, Nat.mul_succ, Nat.add_comm, ← hC, slice_append_add, hC, fullChunk]

theorem finalChunk_append {C : List Bool} (hC : C.length = 13) (S : List Bool) :
    finalChunk (C ++ S) = finalChunk S := by
  have hmod : (C ++ S).length % 13 = S.length % 13 := by
    rw [List.length_append, hC]
    omega
  rw [finalChunk, length_append_div_chunk hC, hmod, Nat.mul_succ, Nat.add_comm, ← hC, slice_append_add,
    hC, finalChunk]

/-- What is made of the full chunks of `C ++ S`: what is made of `C`, then what is made of those of `S`. -/
theorem flatMap_fullChunk_append {β : Type} (g : List Bool → List β) {C : List Bool} (hC : C.length = 13)
    (S : List Bool) :
    (List.range ((C ++ S).length / 13)).flatMap (fun j => g (fullChunk (C ++ S) j)) =
      g C ++ (List.range (S.length / 13)).flatMap (fun j => g (fullChunk S j)) := by
  rw [length_append_div_chunk hC, List.range_succ_eq_map, List.flatMap_cons, fullChunk_append_zero hC,
    List.flatMap_map]
  simp only [fullChunk_append_succ hC]

/-- R81: the chunks in order are the sequence. -/
theorem flatMap_fullChunk_append_finalChunk (S : List Bool) :
    (List.range (S.length / 13)).flatMap (fullChunk S) ++ finalChunk S = S := by
  induction S using chunk_induction with
  | short T hT => rw [finalChunk_of_short hT, Nat.div_eq_of_lt hT]; rfl
  | full C S hC ih =>
    have hcons := flatMap_fullChunk_append id hC S
    simp only [id] at hcons
    rw [hcons, finalChunk_append hC, List.append_assoc, ih]

/-- Settles O13: the chunks of any sequence, at the length of a buffer's; 8 is invertible modulo 13, with
inverse 5, so every remainder occurs. -/
theorem chunksCutTheSequence : Obligations.ChunksCutTheSequence := by
  refine ⟨fun B => ?cut, fun r hr => ⟨5 * r, by omega⟩⟩
  case cut =>
    rw [← length_bitSequence]
    exact ⟨flatMap_fullChunk_append_finalChunk _, fun j hj => ⟨length_fullChunk hj, rfl⟩,
      length_finalChunk _⟩

end Sys2Proof.Machine

/-! # O14 and O15: the symbols of a chunk, and how many there are

The encoder by recursion on the chunks (`encodeBits_append`, `encodeBits_of_short`). -/

namespace Sys2Proof.Machine

/-! ## Values of padded chunks (R83, R84) -/

theorem val_lt_of_length_eq {T : List Bool} {n : Nat} (hT : T.length = n) : val T < 2 ^ n :=
  hT ▸ val_lt T

@[simp] theorem val_zeros (k : Nat) : val (zeros k) = 0 := by
  induction k with
  | zero => rfl
  | succ k ih => rw [zeros, List.replicate_succ, val_cons, ← zeros, ih]; simp

theorem val_append_zeros (T : List Bool) (k : Nat) : val (T ++ zeros k) = val T * 2 ^ k := by
  rw [val_append, val_zeros, length_zeros, Nat.add_zero]

/-- Both indices of a 13-bit value are entries of the alphabet, since `2 ^ 13 ≤ 91 * 91`. -/
theorem pair_indices_le {T : List Bool} (hT : T.length = 13) :
    val T / alphabetSize ≤ 90 ∧ val T % alphabetSize ≤ 90 := by
  have hval := val_lt_of_length_eq hT
  rw [alphabetSize]
  omega

/-- Padding up to `n` bits gives a value of `n` bits. -/
theorem val_padded_lt {T : List Bool} {n : Nat} (hT : T.length ≤ n) :
    val (T ++ zeros (n - T.length)) < 2 ^ n :=
  val_lt_of_length_eq (by rw [List.length_append, length_zeros]; omega)

/-! ## The encoder by chunks (R82 to R85) -/

theorem finalGroup_single (α : List Byte) {T : List Bool} (hpos : 1 ≤ T.length) (hT : T.length ≤ 6) :
    finalGroup α T = [symbolAt α (val (T ++ zeros (6 - T.length)))] := by
  rw [finalGroup, if_neg (by omega), if_pos hT]

theorem finalGroup_pair (α : List Byte) {T : List Bool} (hT : 7 ≤ T.length) :
    finalGroup α T = pairSymbols α (val (T ++ zeros (13 - T.length))) := by
  rw [finalGroup, if_neg (by omega), if_neg (by omega)]

theorem encodeBits_of_short (α : List Byte) {T : List Bool} (hT : T.length < 13) :
    encodeBits α T = finalGroup α T := by
  rw [encodeBits, Nat.div_eq_of_lt hT, finalChunk_of_short hT]
  rfl

theorem encodeBits_append (α : List Byte) {C : List Bool} (hC : C.length = 13) (S : List Bool) :
    encodeBits α (C ++ S) = pairSymbols α (val C) ++ encodeBits α S := by
  rw [encodeBits, flatMap_fullChunk_append (fun T => pairSymbols α (val T)) hC, finalChunk_append hC,
    List.append_assoc, ← encodeBits]

@[simp] theorem encodeBits_nil (α : List Byte) : encodeBits α [] = [] := rfl

@[simp] theorem enc_nil (α : List Byte) : enc α [] = [] := rfl

theorem encodeBits_fullChunk (α : List Byte) {C : List Bool} (hC : C.length = 13) :
    encodeBits α C = pairSymbols α (val C) := by
  simpa using encodeBits_append α hC []

/-- Settles O14: the three kinds of chunk; the bounds say that the value has 13 or 6 bits. -/
theorem chunkSymbols : Obligations.ChunkSymbols := by
  refine fun α T => ⟨fun hT => ?full, fun hpos hT => ?single, fun hlo hT => ?pair⟩
  case full =>
    obtain ⟨hfst, hsnd⟩ := pair_indices_le hT
    exact ⟨Nat.le_of_lt_succ (val_lt_of_length_eq hT), hfst, hsnd, encodeBits_fullChunk α hT⟩
  case single =>
    have hval := val_padded_lt hT
    rw [encodeBits_of_short α (by omega), finalGroup_single α hpos hT]
    rw [val_append_zeros] at hval ⊢
    exact ⟨rfl, Nat.le_of_lt_succ hval, rfl⟩
  case pair =>
    have hval := val_padded_lt (Nat.le_succ_of_le hT)
    rw [encodeBits_of_short α (by omega), finalGroup_pair α hlo]
    rw [val_append_zeros] at hval ⊢
    exact ⟨rfl, Nat.le_of_lt_succ hval, rfl⟩

/-! ## The output length (R86) -/

/-- The group of a final chunk has as many symbols as `encLen` counts for it. -/
theorem length_finalGroup (α : List Byte) (T : List Bool) :
    (finalGroup α T).length = if T.length = 0 then 0 else if T.length ≤ 6 then 1 else 2 := by
  rw [finalGroup, apply_ite List.length, apply_ite List.length]
  rfl

theorem length_encodeBits (α : List Byte) (S : List Bool) :
    (encodeBits α S).length = 2 * (S.length / 13) +
      if S.length % 13 = 0 then 0 else if S.length % 13 ≤ 6 then 1 else 2 := by
  have hpairs : ((List.range (S.length / 13)).flatMap
      (fun j => pairSymbols α (val (fullChunk S j)))).length = 2 * (S.length / 13) := by
    simp [pairSymbols, List.length_flatMap, Nat.mul_comm]
  rw [encodeBits, List.length_append, hpairs, length_finalGroup, length_finalChunk]

@[simp] theorem length_enc (α B : List Byte) : (enc α B).length = encLen B.length := by
  rw [enc, length_encodeBits, length_bitSequence, encLen]

/-- R86 in closed form: `ceil(16 N / 13)`. -/
theorem encLen_eq (N : Nat) : encLen N = (16 * N + 12) / 13 := by
  unfold encLen
  split
  · omega
  · split <;> omega

/-- Settles O15: growth and period by the closed form, the law of the remainder by the definition. -/
theorem encodedLength : Obligations.EncodedLength := by
  refine ⟨length_enc, encLen_eq, rfl, fun M N h => ?growth, fun N => ?period,
    fun α B => ⟨fun hr => ?exact, fun hlo hhi => ?single, fun hr => ?pair⟩⟩
  case growth => rw [encLen_eq, encLen_eq]; omega
  case period => rw [encLen_eq, encLen_eq]; omega
  all_goals rw [length_enc, encLen]
  case exact => rw [if_pos hr]; rfl
  case single => rw [if_neg (by omega), if_pos hhi]
  case pair => rw [if_neg (by omega), if_neg (by omega)]

end Sys2Proof.Machine

/-! # O32, O20 and O16: what ENC emits decodes, without an overflow, to what was encoded

The scan of an encoded sequence gives the sequence back with the padding of its final chunk, fewer than
eight zero bits (`scanSymbols_encodeBits`), which regrouping discards (`regroup_bitSequence_append`).  So
decode is a left inverse of encode (`dec_enc`). -/

namespace Sys2Proof.Machine

/-! ## Bits from their value (R12) -/

theorem val_cons_div (b : Bool) (T : List Bool) : val (b :: T) / 2 ^ T.length = b.toNat := by
  rw [val_cons, Nat.mul_comm, Nat.mul_add_div (Nat.two_pow_pos _), Nat.div_eq_of_lt (val_lt T),
    Nat.add_zero]

theorem val_cons_mod (b : Bool) (T : List Bool) : val (b :: T) % 2 ^ T.length = val T := by
  rw [val_cons, Nat.mul_add_mod_self_right, Nat.mod_eq_of_lt (val_lt T)]

/-- Sequences of one length are told apart by their values: the quotient by the weight of the first bit
is that bit, and the remainder is the value of the rest. -/
theorem eq_of_val_eq {T U : List Bool} (hlen : T.length = U.length) (hval : val T = val U) : T = U := by
  induction T generalizing U with
  | nil => exact (List.eq_nil_of_length_eq_zero hlen.symm).symm
  | cons b T ih =>
    cases U with
    | nil => cases hlen
    | cons c U =>
      have htail : T.length = U.length := Nat.succ.inj hlen
      have hdiv := val_cons_div b T
      have hmod := val_cons_mod b T
      rw [hval, htail, val_cons_div] at hdiv
      rw [hval, htail, val_cons_mod] at hmod
      have hbit : c = b := by rw [← Bool.ofNat_toNat c, hdiv, Bool.ofNat_toNat]
      rw [hbit, ih htail hmod.symm]

theorem bitsN_val {T : List Bool} {n : Nat} (hT : T.length = n) : bitsN n (val T) = T :=
  eq_of_val_eq (by rw [length_bitsN, hT]) (by rw [val_bitsN, Nat.mod_eq_of_lt (val_lt_of_length_eq hT)])

/-! ## Regrouping (R101) -/

theorem regroup_append (A : List Bool) {G : List Bool} (hG : G.length = 8) :
    regroup (G ++ A) = byteOfBits G :: regroup A := by
  have hdiv : (G ++ A).length / 8 = A.length / 8 + 1 := by
    rw [List.length_append, hG]
    omega
  have hfirst : slice (G ++ A) (8 * 0) 8 = G := hG ▸ slice_append_zero G A
  have hnext (t : Nat) : slice (G ++ A) (8 * (t + 1)) 8 = slice A (8 * t) 8 := by
    rw [Nat.mul_succ, Nat.add_comm, ← hG, slice_append_add]
  rw [regroup, hdiv, List.range_succ_eq_map, List.map_cons, hfirst, List.map_map, regroup]
  simp only [Function.comp_def, hnext]

theorem regroup_of_short {R : List Bool} (hR : R.length < 8) : regroup R = [] := by
  rw [regroup, Nat.div_eq_of_lt hR]
  rfl

theorem byteOfBits_bits8 (b : Byte) : byteOfBits (bits8 b) = b := by
  rw [byteOfBits, val_bits8, BitVec.ofNat_toNat, BitVec.setWidth_eq]

/-- R101: regrouping undoes `bitSequence` and discards what is left over. -/
theorem regroup_bitSequence_append (B : List Byte) {R : List Bool} (hR : R.length < 8) :
    regroup (bitSequence B ++ R) = B := by
  induction B with
  | nil => exact regroup_of_short hR
  | cons b B ih =>
    rw [bitSequence_cons, List.append_assoc, regroup_append _ (length_bits8 b), byteOfBits_bits8, ih]

/-! ## The scan of what the encoder emits (R89) -/

theorem indexOf_symbolAt {α : List Byte} {i : Nat} (h : Alphabet.wf α) (hi : i ≤ 90) :
    indexOf α (symbolAt α i) = some i :=
  indexOf_of_getElem? h (getElem?_eq_symbolAt h hi)

/-- The two symbols of 13 bits decode to these bits: their value is below `2 ^ 13`, so PAIR_STRICT does
not matter. -/
theorem decodePair_pairSymbols {α : List Byte} {T : List Bool} (h : Alphabet.wf α) (hT : T.length = 13)
    (ps : Bool) (pos : Nat) :
    decodePair α ps pos (symbolAt α (val T / alphabetSize)) (symbolAt α (val T % alphabetSize)) =
      .bits T := by
  have hval := val_lt_of_length_eq hT
  obtain ⟨hfst, hsnd⟩ := pair_indices_le hT
  simp only [decodePair, indexOf_symbolAt h hfst, indexOf_symbolAt h hsnd, Nat.div_add_mod']
  rw [if_neg (by omega), Nat.mod_eq_of_lt (b := 8192) hval, bitsN_val hT]

/-- The symbol of 6 bits decodes to these bits, whatever TAIL_STRICT is. -/
theorem decodeTail_symbolAt {α : List Byte} {T : List Bool} (h : Alphabet.wf α) (hT : T.length = 6)
    (ts : Bool) (pos : Nat) : decodeTail α ts pos (symbolAt α (val T)) = .bits T := by
  have hval := val_lt_of_length_eq hT
  have hidx := indexOf_symbolAt h (i := val T) (by omega)
  simp only [decodeTail, hidx]
  rw [if_neg (by omega), Nat.mod_eq_of_lt (b := 64) hval, bitsN_val hT]

theorem scanSymbols_pairSymbols_append {α : List Byte} {T : List Bool} (h : Alphabet.wf α)
    (hT : T.length = 13) (ps ts : Bool) (pos : Nat) (rest : List Byte) :
    scanSymbols α ps ts pos (pairSymbols α (val T) ++ rest) =
      (scanSymbols α ps ts (pos + 2) rest).prepend T := by
  simp only [pairSymbols, List.cons_append, List.nil_append, scanSymbols, decodePair_pairSymbols h hT]

/-- A final chunk comes back with its padding. -/
theorem scanSymbols_finalGroup {α : List Byte} {T : List Bool} (h : Alphabet.wf α) (hT : T.length < 13)
    (ps ts : Bool) (pos : Nat) :
    ∃ k, k < 8 ∧ scanSymbols α ps ts pos (finalGroup α T) = .bits (T ++ zeros k) := by
  rcases Nat.eq_zero_or_pos T.length with hzero | hpos
  · rw [List.eq_nil_of_length_eq_zero hzero]
    exact ⟨0, by omega, by simp [finalGroup, scanSymbols, zeros]⟩
  · by_cases hsix : T.length ≤ 6
    · refine ⟨6 - T.length, by omega, ?_⟩
      rw [finalGroup_single α hpos hsix, scanSymbols,
        decodeTail_symbolAt h (by rw [List.length_append, length_zeros]; omega)]
    · refine ⟨13 - T.length, by omega, ?_⟩
      have hscan := scanSymbols_pairSymbols_append h (T := T ++ zeros (13 - T.length))
        (by rw [List.length_append, length_zeros]; omega) ps ts pos []
      rw [finalGroup_pair α (by omega)]
      simpa [scanSymbols, Scan.prepend] using hscan

theorem scanSymbols_encodeBits {α : List Byte} (h : Alphabet.wf α) (S : List Bool) (ps ts : Bool)
    (pos : Nat) :
    ∃ k, k < 8 ∧ scanSymbols α ps ts pos (encodeBits α S) = .bits (S ++ zeros k) := by
  induction S using chunk_induction generalizing pos with
  | short T hT => rw [encodeBits_of_short α hT]; exact scanSymbols_finalGroup h hT ps ts pos
  | full C S hC ih =>
    obtain ⟨k, hk, hscan⟩ := ih (pos + 2)
    refine ⟨k, hk, ?_⟩
    rw [encodeBits_append α hC, scanSymbols_pairSymbols_append h hC, hscan, Scan.prepend,
      List.append_assoc]

/-- Decode is a left inverse of encode, under every setting of the strict bits. -/
theorem dec_enc {α : List Byte} (h : Alphabet.wf α) (B : List Byte) (ps ts : Bool) :
    dec α (enc α B) ps ts = .ok B := by
  obtain ⟨k, hk, hscan⟩ := scanSymbols_encodeBits h (bitSequence B) ps ts 0
  rw [dec, enc, hscan]
  exact congrArg DecResult.ok (regroup_bitSequence_append B (by rwa [length_zeros]))

/-! ## Injectivity (R92) -/

/-- A single `!` is six bits, which is less than a byte. -/
theorem dec_bang (ps ts : Bool) : dec Config.r72Alphabet [0x21#8] ps ts = .ok [] := by
  have hscan := decodeTail_symbolAt Config.r72Alphabet_wf (length_zeros 6) ts 0
  have hbang : symbolAt Config.r72Alphabet 0 = 0x21#8 := symbolAt_r72Alphabet (by decide)
  rw [val_zeros, hbang] at hscan
  rw [dec, scanSymbols, hscan]
  exact congrArg DecResult.ok (regroup_of_short (by decide))

/-- Settles O32: encode has a left inverse; the empty text and a single `!` both decode to no byte. -/
theorem encodeIsInjective : Obligations.EncodeIsInjective := by
  refine ⟨fun α B C h heq => ?injective, fun ps ts =>
    ⟨[], [0x21#8], [], by decide, rfl, dec_bang ps ts⟩⟩
  case injective =>
    have hdec := dec_enc h B false false
    rw [heq, dec_enc h C] at hdec
    exact (DecResult.ok.inj hdec).symm

/-! ## The groups of an encoded input, by position (R89) -/

theorem fullChunk_append_drop (S : List Bool) (j : Nat) :
    fullChunk S j ++ S.drop (13 * (j + 1)) = S.drop (13 * j) := by
  rw [fullChunk, slice, Nat.mul_succ, ← List.drop_drop, List.take_append_drop]

/-- Two symbols a chunk: the output past `j` pairs encodes the input past `j` chunks. -/
theorem drop_encodeBits (α : List Byte) (S : List Bool) {j : Nat} (hj : j ≤ S.length / 13) :
    (encodeBits α S).drop (2 * j) = encodeBits α (S.drop (13 * j)) := by
  induction j with
  | zero => simp
  | succ j ih =>
    rw [Nat.mul_succ, ← List.drop_drop, ih (by omega), ← fullChunk_append_drop,
      encodeBits_append α (length_fullChunk hj)]
    rfl

theorem drop_fullChunks (S : List Bool) : S.drop (13 * (S.length / 13)) = finalChunk S := by
  rw [finalChunk, slice, List.take_of_length_le (by rw [List.length_drop]; omega)]

theorem drop_encodeBits_fullChunk (α : List Byte) {S : List Bool} {j : Nat} (hj : j < S.length / 13) :
    (encodeBits α S).drop (2 * j) =
      pairSymbols α (val (fullChunk S j)) ++ encodeBits α (S.drop (13 * (j + 1))) := by
  rw [drop_encodeBits α S (Nat.le_of_lt hj), ← fullChunk_append_drop,
    encodeBits_append α (length_fullChunk hj)]

theorem drop_encodeBits_finalChunk (α : List Byte) (S : List Bool) :
    (encodeBits α S).drop (2 * (S.length / 13)) = finalGroup α (finalChunk S) := by
  rw [drop_encodeBits α S (Nat.le_refl _), drop_fullChunks,
    encodeBits_of_short α (by rw [length_finalChunk]; omega)]

theorem getElem?_of_drop_eq_cons {O R : List Byte} {n : Nat} {b : Byte} (hO : O.drop n = b :: R) :
    O[n]? = some b := by
  rw [← Nat.add_zero n, ← List.getElem?_drop, hO, List.getElem?_cons_zero]

/-- Where the symbols of a 13-bit value stand, their indices combine to it. -/
theorem indices_of_pairSymbols {α O R : List Byte} {T : List Bool} {n : Nat} (h : Alphabet.wf α)
    (hT : T.length = 13) (hO : O.drop n = pairSymbols α (val T) ++ R) :
    ∃ s1 s2 i1 i2, O[n]? = some s1 ∧ O[n + 1]? = some s2 ∧
      indexOf α s1 = some i1 ∧ indexOf α s2 = some i2 ∧
      i1 * 91 + i2 = val T ∧ i1 * 91 + i2 ≤ 8191 := by
  obtain ⟨hfst, hsnd⟩ := pair_indices_le hT
  have hcombine : val T / alphabetSize * 91 + val T % alphabetSize = val T := Nat.div_add_mod' _ _
  have hnext : O.drop (n + 1) = symbolAt α (val T % alphabetSize) :: R := by
    rw [← List.drop_drop, hO]
    rfl
  exact ⟨_, _, _, _, getElem?_of_drop_eq_cons hO, getElem?_of_drop_eq_cons hnext,
    indexOf_symbolAt h hfst, indexOf_symbolAt h hsnd, hcombine,
    hcombine.trans_le (Nat.le_of_lt_succ (val_lt_of_length_eq hT))⟩

/-- Settles O20: the groups by position, and no error at all in a decode that gives the input back. -/
theorem encodedPairsAreCanonical : Obligations.EncodedPairsAreCanonical := by
  intro α B h
  have hfinal := drop_encodeBits_finalChunk α (bitSequence B)
  have hlen := length_finalChunk (bitSequence B)
  rw [← length_bitSequence, ← hlen, enc]
  refine ⟨fun j hj => ?full, fun hr => ?pair, fun hlo hhi => ?single, fun ps ts pos => ?overflow⟩
  case full =>
    exact indices_of_pairSymbols h (length_fullChunk hj) (drop_encodeBits_fullChunk α hj)
  case pair =>
    rw [finalGroup_pair α hr, ← List.append_nil (pairSymbols _ _)] at hfinal
    exact indices_of_pairSymbols h (by rw [List.length_append, length_zeros]; omega) hfinal
  case single =>
    rw [finalGroup_single α hlo hhi] at hfinal
    have hval := val_padded_lt hhi
    exact ⟨_, _, getElem?_of_drop_eq_cons hfinal, indexOf_symbolAt h (by omega), rfl,
      Nat.le_of_lt_succ hval⟩
  case overflow =>
    rw [← enc, dec_enc h]
    exact ⟨nofun, nofun⟩

end Sys2Proof.Machine

/-! # O16: ENC and DEC of no input. -/

namespace Sys2Proof.Machine

/-! ## Commands on an input within IN_CAP (R88, R102) -/

theorem State.completeBytes_succeeded (O : List Byte) (s : State) : (s.completeBytes O).Succeeded :=
  ⟨s.completeBytes_completed O, rfl, rfl, rfl⟩

theorem exec_enc_of_le {s : State} {l : Latch} (hl : s.latch = some l)
    (hlen : l.len.toNat ≤ s.config.inCap) :
    exec .enc s = .next ((s.afterInput l).completeBytes (enc s.config.alphabet (s.input l))) :=
  (withLatch_some _ hl).trans (congrArg _ (if_neg (Nat.not_lt.2 hlen)))

theorem exec_dec_of_le {s : State} {l : Latch} (hl : s.latch = some l)
    (hlen : l.len.toNat ≤ s.config.inCap) :
    exec .dec s =
      .next ((s.afterInput l).completeDec (dec s.config.alphabet (s.input l) l.ps l.ts)) :=
  (withLatch_some _ hl).trans (congrArg _ (if_neg (Nat.not_lt.2 hlen)))

/-! ## Length 0 (R87, R93) -/

theorem State.input_of_len_zero {l : Latch} (s : State) (hlen : l.len = 0) : s.input l = [] :=
  List.eq_nil_of_length_eq_zero (by rw [State.length_input, hlen]; rfl)

@[simp] theorem dec_nil (α : List Byte) (ps ts : Bool) : dec α [] ps ts = .ok [] := rfl

/-- A success with no output byte: DST_LEN is 0 and OUT_BUF holds nothing, with ERR 0. -/
theorem State.completeBytes_nil (s : State) :
    (s.completeBytes []).Succeeded ∧ (s.completeBytes []).dstLen = 0 ∧
      ∀ a, (s.completeBytes []).outBuf.read a = none :=
  ⟨s.completeBytes_succeeded [], rfl, fun _ => rfl⟩

/-- Settles O16: both functions give `[]`, and both commands complete with it. -/
theorem emptyIdentities : Obligations.EmptyIdentities := by
  refine ⟨enc_nil, dec_nil, fun s l hl hlen => ?enc, fun s l hl hlen => ?dec⟩
  all_goals have hcap : l.len.toNat ≤ s.config.inCap := by rw [hlen]; exact Nat.zero_le _
  case enc =>
    have hexec := exec_enc_of_le hl hcap
    rw [s.input_of_len_zero hlen, enc_nil] at hexec
    exact ⟨_, hexec, State.completeBytes_nil _⟩
  case dec =>
    have hexec := exec_dec_of_le hl hcap
    rw [s.input_of_len_zero hlen, dec_nil] at hexec
    exact ⟨_, hexec, State.completeBytes_nil _⟩

end Sys2Proof.Machine

/-! # O22, O23 and O24: the scan of a list of symbols, group by group

The scan of whole pairs followed by more symbols is the scan of the rest, started where the pairs end
(`scanSymbols_append`).  So the statements about a group after a prefix are statements about `decodePair`
and `decodeTail`, whose outcomes are said here by the indices of their symbols. -/

namespace Sys2Proof.Machine

/-! ## One group (R95 to R99) -/

theorem le_of_indexOf {α : List Byte} {b : Byte} {i : Nat} (h : Alphabet.wf α)
    (hi : indexOf α b = some i) : i ≤ 90 :=
  le_of_getElem?_alphabet h ((indexOf_eq_some_iff h).1 hi)

theorem decodePair_of_first_invalid {α : List Byte} {s1 : Byte} (h1 : indexOf α s1 = none) (ps : Bool)
    (pos : Nat) (s2 : Byte) : decodePair α ps pos s1 s2 = .err .invalidSymbol pos := by
  simp only [decodePair, h1]

theorem decodePair_of_second_invalid {α : List Byte} {s1 s2 : Byte} {i1 : Nat}
    (h1 : indexOf α s1 = some i1) (h2 : indexOf α s2 = none) (ps : Bool) (pos : Nat) :
    decodePair α ps pos s1 s2 = .err .invalidSymbol (pos + 1) := by
  simp only [decodePair, h1, h2]

theorem decodePair_of_valid {α : List Byte} {s1 s2 : Byte} {i1 i2 : Nat} (h1 : indexOf α s1 = some i1)
    (h2 : indexOf α s2 = some i2) (ps : Bool) (pos : Nat) :
    decodePair α ps pos s1 s2 =
      if 8191 < i1 * 91 + i2 ∧ ps = true then .err .pairOverflow pos
      else .bits (bitsN 13 ((i1 * 91 + i2) % 8192)) := by
  simp only [decodePair, h1, h2, alphabetSize, gt_iff_lt]

theorem decodeTail_of_invalid {α : List Byte} {s : Byte} (h : indexOf α s = none) (ts : Bool)
    (pos : Nat) : decodeTail α ts pos s = .err .invalidSymbol pos := by
  simp only [decodeTail, h]

theorem decodeTail_of_valid {α : List Byte} {s : Byte} {i : Nat} (h : indexOf α s = some i) (ts : Bool)
    (pos : Nat) :
    decodeTail α ts pos s =
      if 63 < i ∧ ts = true then .err .tailOverflow pos else .bits (bitsN 6 (i % 64)) := by
  simp only [decodeTail, h, gt_iff_lt]

/-- A pair that decodes has two valid symbols, and its value gives 13 bits. -/
theorem decodePair_eq_bits {α : List Byte} {ps : Bool} {pos : Nat} {s1 s2 : Byte} {G : List Bool}
    (h : decodePair α ps pos s1 s2 = .bits G) :
    indexOf α s1 ≠ none ∧ indexOf α s2 ≠ none ∧ G.length = 13 := by
  cases h1 : indexOf α s1 with
  | none => simp [decodePair_of_first_invalid h1] at h
  | some i1 =>
    cases h2 : indexOf α s2 with
    | none => simp [decodePair_of_second_invalid h1 h2] at h
    | some i2 =>
      rw [decodePair_of_valid h1 h2] at h
      split at h
      · cases h
      · cases h
        exact ⟨nofun, nofun, length_bitsN 13 _⟩

/-- The causes a pair can report: an overflow only under PAIR_STRICT. -/
theorem decodePair_eq_err {α : List Byte} {ps : Bool} {pos p : Nat} {s1 s2 : Byte} {c : ErrorCode}
    (h : decodePair α ps pos s1 s2 = .err c p) :
    c = .invalidSymbol ∨ (c = .pairOverflow ∧ ps = true) := by
  cases h1 : indexOf α s1 with
  | none =>
    rw [decodePair_of_first_invalid h1] at h
    cases h
    exact .inl rfl
  | some i1 =>
    cases h2 : indexOf α s2 with
    | none =>
      rw [decodePair_of_second_invalid h1 h2] at h
      cases h
      exact .inl rfl
    | some i2 =>
      rw [decodePair_of_valid h1 h2] at h
      split at h
      next hover =>
        cases h
        exact .inr ⟨rfl, hover.2⟩
      next => cases h

theorem length_of_decodeTail {α : List Byte} {ts : Bool} {pos : Nat} {s : Byte} {G : List Bool}
    (h : decodeTail α ts pos s = .bits G) : G.length = 6 := by
  cases hs : indexOf α s with
  | none => simp [decodeTail_of_invalid hs] at h
  | some i =>
    rw [decodeTail_of_valid hs] at h
    split at h
    · cases h
    · cases h
      exact length_bitsN 6 _

/-! ## The scan (R94) -/

@[simp] theorem Scan.prepend_nil (r : Scan) : r.prepend [] = r := by cases r <;> rfl

@[simp] theorem Scan.prepend_prepend (r : Scan) (A G : List Bool) :
    (r.prepend A).prepend G = r.prepend (G ++ A) := by
  cases r with
  | bits A' => exact congrArg Scan.bits (List.append_assoc G A A').symm
  | err c pos => rfl

theorem Scan.prepend_eq_bits {r : Scan} {G A : List Bool} (h : r.prepend G = .bits A) :
    ∃ A', r = .bits A' ∧ A = G ++ A' := by
  cases r with
  | bits A' =>
    cases h
    exact ⟨A', rfl, rfl⟩
  | err c pos => cases h

theorem scanSymbols_cons_of_bits {α : List Byte} {ps : Bool} {pos : Nat} {s1 s2 : Byte} {G : List Bool}
    (h : decodePair α ps pos s1 s2 = .bits G) (ts : Bool) (rest : List Byte) :
    scanSymbols α ps ts pos (s1 :: s2 :: rest) = (scanSymbols α ps ts (pos + 2) rest).prepend G := by
  simp only [scanSymbols, h]

theorem scanSymbols_cons_of_err {α : List Byte} {ps : Bool} {pos p : Nat} {s1 s2 : Byte} {c : ErrorCode}
    (h : decodePair α ps pos s1 s2 = .err c p) (ts : Bool) (rest : List Byte) :
    scanSymbols α ps ts pos (s1 :: s2 :: rest) = .err c p := by
  simp only [scanSymbols, h]

theorem scanSymbols_pair_of_bits {α : List Byte} {ps : Bool} {pos : Nat} {s1 s2 : Byte} {G : List Bool}
    (h : decodePair α ps pos s1 s2 = .bits G) (ts : Bool) :
    scanSymbols α ps ts pos [s1, s2] = .bits G := by
  rw [scanSymbols_cons_of_bits h, scanSymbols, Scan.prepend, List.append_nil]

/-- Whole pairs that decode put their bits before those of what follows them. -/
theorem scanSymbols_append {α P : List Byte} {ps ts : Bool} {pos : Nat} {A : List Bool}
    (heven : P.length % 2 = 0) (hP : scanSymbols α ps ts pos P = .bits A) (S : List Byte) :
    scanSymbols α ps ts pos (P ++ S) = (scanSymbols α ps ts (pos + P.length) S).prepend A := by
  induction pos, P using scanSymbols.induct α ps generalizing A with
  | case1 pos =>
    cases hP
    rw [Scan.prepend_nil]
    rfl
  | case2 pos s => cases heven
  | case3 pos s1 s2 rest c p hpair =>
    rw [scanSymbols_cons_of_err hpair] at hP
    cases hP
  | case4 pos s1 s2 rest G hpair ih =>
    rw [scanSymbols_cons_of_bits hpair] at hP
    obtain ⟨A', hrest, rfl⟩ := Scan.prepend_eq_bits hP
    have hlen : (s1 :: s2 :: rest).length = 2 + rest.length := Nat.add_comm _ 2
    rw [List.cons_append, List.cons_append, scanSymbols_cons_of_bits hpair, ih (by omega) hrest,
      Scan.prepend_prepend, hlen, Nat.add_assoc]

/-- `scanSymbols_append` for a scan of a whole input, its prefix counted in pairs. -/
theorem scanSymbols_append_pairs {α P : List Byte} {ps ts : Bool} {A : List Bool} {j : Nat}
    (hlen : P.length = 2 * j) (hP : scanSymbols α ps ts 0 P = .bits A) (S : List Byte) :
    scanSymbols α ps ts 0 (P ++ S) = (scanSymbols α ps ts (2 * j) S).prepend A := by
  rw [scanSymbols_append (by omega) hP, Nat.zero_add, hlen]

/-- An error after whole pairs that decode is the decode's outcome. -/
theorem dec_append_of_err {α P S : List Byte} {ps ts : Bool} {A : List Bool} {j pos : Nat}
    {c : ErrorCode} (hlen : P.length = 2 * j) (hP : scanSymbols α ps ts 0 P = .bits A)
    (hS : scanSymbols α ps ts (2 * j) S = .err c pos) : dec α (P ++ S) ps ts = .err c pos := by
  rw [dec, scanSymbols_append_pairs hlen hP, hS, Scan.prepend]

theorem scanSymbols_append_of_bits {α P S : List Byte} {ps ts : Bool} {A G : List Bool} {j : Nat}
    (hlen : P.length = 2 * j) (hP : scanSymbols α ps ts 0 P = .bits A)
    (hS : scanSymbols α ps ts (2 * j) S = .bits G) :
    scanSymbols α ps ts 0 (P ++ S) = .bits (A ++ G) := by
  rw [scanSymbols_append_pairs hlen hP, hS, Scan.prepend]

/-! ## The statements -/

/-- Settles O22: the indices are at most 90, so a value above 8191 needs the largest first index, and its
remainder by 8192 is what it exceeds 8192 by. -/
theorem pairIsScannedInOrder : Obligations.PairIsScannedInOrder := by
  intro α P rest A s1 s2 ps ts j h hlen hP
  refine ⟨fun h1 => ?first, fun i1 h1 h2 => ?second, fun i1 i2 h1 h2 => ?valid⟩
  case first =>
    exact dec_append_of_err hlen hP (scanSymbols_cons_of_err (decodePair_of_first_invalid h1 ..) ..)
  case second =>
    exact dec_append_of_err hlen hP (scanSymbols_cons_of_err (decodePair_of_second_invalid h1 h2 ..) ..)
  case valid =>
    have hle1 := le_of_indexOf h h1
    have hle2 := le_of_indexOf h h2
    have hpair := decodePair_of_valid h1 h2 ps (2 * j)
    refine ⟨by omega, by omega, fun hover hps => ?strict, fun hover hps => ⟨by omega, ?truncated⟩,
      fun hfit => ?fits⟩
    case strict =>
      rw [if_pos ⟨hover, hps⟩] at hpair
      exact dec_append_of_err hlen hP (scanSymbols_cons_of_err hpair ..)
    case truncated =>
      have hmod : (i1 * 91 + i2) % 8192 = i1 * 91 + i2 - 8192 := by omega
      rw [if_neg (by simp [hps]), hmod] at hpair
      exact scanSymbols_append_of_bits hlen hP (scanSymbols_pair_of_bits hpair ts)
    case fits =>
      rw [if_neg (by omega), Nat.mod_eq_of_lt (by omega)] at hpair
      exact scanSymbols_append_of_bits hlen hP (scanSymbols_pair_of_bits hpair ts)

/-- Settles O23: the scan of a single symbol is `decodeTail`, by the index's side of 63. -/
theorem tailIsScannedLast : Obligations.TailIsScannedLast := by
  intro α P A c ps ts j h hlen hP
  refine ⟨fun hc => ?invalid, fun i hi => ⟨fun hover hts => ?strict, fun hover hts => ?truncated,
    fun hfit => ?fits⟩⟩
  case invalid => exact dec_append_of_err hlen hP (decodeTail_of_invalid hc ts (2 * j))
  all_goals have htail := decodeTail_of_valid hi ts (2 * j)
  case strict =>
    rw [if_pos ⟨hover, hts⟩] at htail
    exact dec_append_of_err hlen hP htail
  case truncated =>
    have hle := le_of_indexOf h hi
    have hmod : i % 64 = i - 64 := by omega
    rw [if_neg (by simp [hts]), hmod] at htail
    exact scanSymbols_append_of_bits hlen hP htail
  case fits =>
    rw [if_neg (by omega), Nat.mod_eq_of_lt (by omega)] at htail
    exact scanSymbols_append_of_bits hlen hP htail

/-- Settles O24, by induction on the bytes (`regroup_bitSequence_append`). -/
theorem regroupDiscardsShortTail : Obligations.RegroupDiscardsShortTail :=
  fun B _ hR => regroup_bitSequence_append B hR

end Sys2Proof.Machine

/-! # O25: how many bytes a decode gives. -/

namespace Sys2Proof.Machine

@[simp] theorem length_regroup (A : List Bool) : (regroup A).length = A.length / 8 := by
  rw [regroup, List.length_map, List.length_range]

/-- 13 bits a pair and 6 for an odd tail. -/
theorem length_of_scanSymbols {α S : List Byte} {ps ts : Bool} {pos : Nat} {A : List Bool}
    (h : scanSymbols α ps ts pos S = .bits A) : A.length = 13 * (S.length / 2) + 6 * (S.length % 2) := by
  induction pos, S using scanSymbols.induct α ps generalizing A with
  | case1 pos =>
    cases h
    rfl
  | case2 pos s => rw [length_of_decodeTail h, List.length_singleton]
  | case3 pos s1 s2 rest c p hpair =>
    rw [scanSymbols_cons_of_err hpair] at h
    cases h
  | case4 pos s1 s2 rest G hpair ih =>
    rw [scanSymbols_cons_of_bits hpair] at h
    obtain ⟨A', hrest, rfl⟩ := Scan.prepend_eq_bits h
    obtain ⟨-, -, hG⟩ := decodePair_eq_bits hpair
    rw [List.length_append, hG, ih hrest, List.length_cons, List.length_cons]
    omega

theorem dec_eq_ok {α S O : List Byte} {ps ts : Bool} (h : dec α S ps ts = .ok O) :
    ∃ A, scanSymbols α ps ts 0 S = .bits A ∧ O = regroup A := by
  rw [dec] at h
  cases hscan : scanSymbols α ps ts 0 S with
  | bits A =>
    rw [hscan] at h
    cases h
    exact ⟨A, rfl, rfl⟩
  | err c pos =>
    rw [hscan] at h
    cases h

theorem length_of_dec {α S O : List Byte} {ps ts : Bool} (h : dec α S ps ts = .ok O) :
    O.length = decLen S.length := by
  obtain ⟨A, hscan, rfl⟩ := dec_eq_ok h
  rw [length_regroup, length_of_scanSymbols hscan, decLen]

theorem decLen_le (M : Nat) : decLen M ≤ M := by
  rw [decLen]
  omega

theorem le_encLen (N : Nat) : N ≤ encLen N := by
  rw [encLen_eq]
  omega

/-- The round trip of any `N` bytes, read for its lengths. -/
theorem decLen_encLen (N : Nat) : decLen (encLen N) = N := by
  have hlen := length_of_dec (dec_enc Config.r72Alphabet_wf (List.replicate N 0#8) false false)
  rw [length_enc, List.length_replicate] at hlen
  exact hlen.symm

/-- Settles O25: what is decoded is no longer than its input, which fits as R7 makes its encoding fit. -/
theorem decodedLength : Obligations.DecodedLength := by
  refine ⟨fun α S O ps ts => length_of_dec, rfl, decLen_le, fun c hc M hM => ?fits, decLen_encLen⟩
  obtain ⟨-, -, hcap, -⟩ := hc
  calc decLen M ≤ M := decLen_le M
    _ ≤ c.inCap := hM
    _ ≤ encLen c.inCap := le_encLen c.inCap
    _ ≤ c.outCap := hcap

end Sys2Proof.Machine

/-! # O29: a DEC over a byte that is no symbol. -/

namespace Sys2Proof.Machine

/-- A scan over a byte that is no symbol ends at that byte or before it.  Where it ends in the tail, the
tail is that byte, so a tail overflow is never its cause. -/
theorem scanSymbols_of_invalid {α S : List Byte} {b : Byte} (hb : indexOf α b = none) (hmem : b ∈ S)
    (ps ts : Bool) (pos : Nat) :
    ∃ c p, scanSymbols α ps ts pos S = .err c p ∧
      (c = .invalidSymbol ∨ (c = .pairOverflow ∧ ps = true)) := by
  induction pos, S using scanSymbols.induct α ps with
  | case1 pos => cases hmem
  | case2 pos s =>
    cases List.mem_singleton.1 hmem
    exact ⟨_, _, decodeTail_of_invalid hb ts pos, .inl rfl⟩
  | case3 pos s1 s2 rest c p hpair =>
    exact ⟨c, p, scanSymbols_cons_of_err hpair .., decodePair_eq_err hpair⟩
  | case4 pos s1 s2 rest G hpair ih =>
    obtain ⟨h1, h2, -⟩ := decodePair_eq_bits hpair
    have hrest : b ∈ rest := by
      refine (List.mem_cons.1 hmem).elim (fun heq => absurd (heq ▸ hb) h1) fun hmem => ?_
      exact (List.mem_cons.1 hmem).resolve_left fun heq => h2 (heq ▸ hb)
    obtain ⟨c, p, hscan, hc⟩ := ih hrest
    exact ⟨c, p, by rw [scanSymbols_cons_of_bits hpair, hscan, Scan.prepend], hc⟩

theorem dec_of_invalid {α S : List Byte} {b : Byte} (hb : indexOf α b = none) (hmem : b ∈ S)
    (ps ts : Bool) :
    ∃ c p, dec α S ps ts = .err c p ∧ (c = .invalidSymbol ∨ (c = .pairOverflow ∧ ps = true)) := by
  obtain ⟨c, p, hscan, hc⟩ := scanSymbols_of_invalid hb hmem ps ts 0
  exact ⟨c, p, by rw [dec, hscan], hc⟩

/-- R106: the bytes that are no symbol, 0x60 only under the alphabet of R72. -/
theorem not_mem_of_invalid {α : List Byte} {b : Byte} (h : Alphabet.wf α)
    (hb : b.toNat < 0x21 ∨ 0x7D < b.toNat ∨ b = 0x22#8 ∨ b = 0x7E#8 ∨
      (α = Config.r72Alphabet ∧ b = 0x60#8)) : b ∉ α := by
  rcases hb with hlow | hhigh | hquote | htilde | ⟨rfl, htick⟩
  · exact not_mem_alphabet h (.inl hlow)
  · exact not_mem_alphabet h (.inr (.inl hhigh))
  · exact not_mem_alphabet h (.inr (.inr hquote))
  · exact not_mem_alphabet h (.inr (.inl (by rw [htilde]; decide)))
  · intro hmem
    obtain ⟨-, -, -, hne⟩ := (Config.mem_r72Alphabet_iff b).1 hmem
    exact hne htick

theorem State.mem_input_of_read {s : State} {l : Latch} {a : Nat} {b : Byte} (ha : a < l.len.toNat)
    (hread : s.inBuf.read a = some b) : b ∈ s.input l :=
  List.mem_of_getElem? (Memory.getElem?_fetch ha (by rwa [Nat.zero_add]))

theorem exec_dec_of_lt {s : State} {l : Latch} (hl : s.latch = some l)
    (hlen : s.config.inCap < l.len.toNat) : exec .dec s = .next (s.completeErr .badLength 0) :=
  (withLatch_some _ hl).trans (congrArg _ (if_pos hlen))

/-- In range, DEC meets the byte that is no symbol, or stops before it. -/
theorem exec_dec_of_invalid {s : State} {l : Latch} {b : Byte} (hl : s.latch = some l)
    (hlen : l.len.toNat ≤ s.config.inCap) (hb : indexOf s.config.alphabet b = none)
    (hmem : b ∈ s.input l) :
    ∃ c p, exec .dec s = .next ((s.afterInput l).completeErr c p) ∧
      (c = .invalidSymbol ∨ (c = .pairOverflow ∧ l.ps = true)) := by
  obtain ⟨c, p, hdec, hc⟩ := dec_of_invalid hb hmem l.ps l.ts
  exact ⟨c, p, by rw [exec_dec_of_le hl hlen, hdec, State.completeDec], hc⟩

/-- Settles O29: each of the causes, BAD_LENGTH out of range among them, clears DST_LEN, and none of them
is a tail overflow. -/
theorem invalidSymbolIsRejected : Obligations.InvalidSymbolIsRejected := by
  intro s l a b hwf hl ha hread hb
  obtain ⟨-, -, -, hα⟩ := hwf
  rcases Nat.lt_or_ge s.config.inCap l.len.toNat with hlong | hlen
  · exact ⟨_, exec_dec_of_lt hl hlong, rfl, rfl, fun hlen => absurd hlong (Nat.not_lt.2 hlen),
      fun hlen => absurd hlong (Nat.not_lt.2 hlen), (by decide : ErrorCode.badLength.code ≠ 3)⟩
  · obtain ⟨c, p, hexec, hc⟩ := exec_dec_of_invalid hl hlen
      (indexOf_of_not_mem (not_mem_of_invalid hα hb)) (State.mem_input_of_read ha hread)
    refine ⟨_, hexec, rfl, ?_⟩
    rcases hc with rfl | ⟨rfl, hps⟩
    · exact ⟨rfl, fun _ _ => rfl, fun _ _ => .inl rfl, (by decide : ErrorCode.invalidSymbol.code ≠ 3)⟩
    · exact ⟨rfl, fun _ hlax => by simp [hps] at hlax, fun _ _ => .inr rfl,
        (by decide : ErrorCode.pairOverflow.code ≠ 3)⟩

end Sys2Proof.Machine

/-! # O34: the text adapter is the codec read on the same bytes. -/

namespace Sys2Proof.Machine

theorem encodeString_eq_enc (α : List Byte) (t : Text) : encodeString α t = enc α t := rfl

/-- R108: the adapter passes the output of a success and the cause and position of an error through. -/
theorem decodeString_eq_dec (α : List Byte) (t : Text) (ps ts : Bool) :
    decodeString α t ps ts = dec α t ps ts := by
  rw [decodeString, asBytes]
  cases dec α t ps ts with
  | ok O => rfl
  | err c pos => rfl

/-- The letter `A`: its 8 bits padded to 13 are `0x41 * 2 ^ 5 = 22 * 91 + 78`, the pair `8q`. -/
theorem enc_letterA : enc Config.r72Alphabet [0x41#8] = [0x38#8, 0x71#8] := by decide

/-- The pair `8q` is what `A` encodes to, so the round trip gives `A` back under every setting. -/
theorem dec_letterA (ps ts : Bool) : dec Config.r72Alphabet [0x38#8, 0x71#8] ps ts = .ok [0x41#8] := by
  rw [← enc_letterA]
  exact dec_enc Config.r72Alphabet_wf [0x41#8] ps ts

/-- Settles O34: each value of the adapter's functions is one of the codec's, by the two equations; each
expansion is the access that RUN makes, at its command word. -/
theorem textAdapterIsReinterpretation : Obligations.TextAdapterIsReinterpretation := by
  have hencStr : expandPseudo .encStr = [writeAccess 0x00 0x00000001#32] := rfl
  have hdecStr : expandPseudo .decStr = [writeAccess 0x00 0x00000002#32] := rfl
  refine ⟨encodeString_eq_enc, decodeString_eq_dec, hencStr, hdecStr, fun α => ?encNil,
    fun α ps ts => ?decNil, ?encA, fun ps ts => ?decA⟩
  case encNil => rw [encodeString_eq_enc, enc_nil]
  case decNil => rw [decodeString_eq_dec, dec_nil]
  case encA => rw [encodeString_eq_enc, enc_letterA]
  case decA => rw [decodeString_eq_dec, dec_letterA]

end Sys2Proof.Machine

/-! # O35 to O38: which command raises which error, for what cause, and what the completion writes

`SymbolErrorAt` says of a list of symbols what the three errors of a scan point at; `Raises` says of a
latched command what each of the six errors comes from.  Every completion is a success or `completeErr` of
an error so raised (`exec_outcome`, `engineStep_outcome`), and the statements read it off by cause. -/

namespace Sys2Proof.Machine

/-! ## What a symbol error points at (R111 to R113) -/

/-- Index `k` of the symbols `S` has the fault that the cause names. -/
inductive SymbolErrorAt (α : List Byte) (ps ts : Bool) (S : List Byte) : ErrorCode → Nat → Prop
  /-- R111: the byte is no symbol. -/
  | invalidSymbol {k : Nat} {b : Byte} (hb : S[k]? = some b) (hinvalid : indexOf α b = none) :
      SymbolErrorAt α ps ts S .invalidSymbol k
  /-- R112: the pair that starts there is above 8191. -/
  | pairOverflow {k i1 i2 : Nat} {s1 s2 : Byte} (hps : ps = true) (heven : k % 2 = 0)
      (hs1 : S[k]? = some s1) (hs2 : S[k + 1]? = some s2) (hi1 : indexOf α s1 = some i1)
      (hi2 : indexOf α s2 = some i2) (hover : 8191 < i1 * 91 + i2) :
      SymbolErrorAt α ps ts S .pairOverflow k
  /-- R113: the index of the odd last symbol is above 63. -/
  | tailOverflow {k i : Nat} {b : Byte} (hts : ts = true) (hodd : S.length % 2 = 1)
      (hlast : k = S.length - 1) (hb : S[k]? = some b) (hi : indexOf α b = some i) (hover : 63 < i) :
      SymbolErrorAt α ps ts S .tailOverflow k

/-- A fault of the rest is one of the whole, a pair further on. -/
theorem SymbolErrorAt.cons_pair {α S : List Byte} {ps ts : Bool} {c : ErrorCode} {k : Nat}
    (h : SymbolErrorAt α ps ts S c k) (s1 s2 : Byte) :
    SymbolErrorAt α ps ts (s1 :: s2 :: S) c (k + 2) := by
  cases h with
  | invalidSymbol hb hinvalid => exact .invalidSymbol hb hinvalid
  | pairOverflow hps heven hs1 hs2 hi1 hi2 hover =>
    exact .pairOverflow hps (by omega) hs1 hs2 hi1 hi2 hover
  | tailOverflow hts hodd hlast hb hi hover =>
    exact .tailOverflow hts (by simp only [List.length_cons]; omega)
      (by simp only [List.length_cons]; omega) hb hi hover

theorem decodePair_errorAt {α : List Byte} {ps : Bool} {pos p : Nat} {s1 s2 : Byte} {c : ErrorCode}
    (h : decodePair α ps pos s1 s2 = .err c p) (ts : Bool) (rest : List Byte) :
    ∃ k, p = pos + k ∧ SymbolErrorAt α ps ts (s1 :: s2 :: rest) c k := by
  cases h1 : indexOf α s1 with
  | none =>
    rw [decodePair_of_first_invalid h1] at h
    cases h
    exact ⟨0, rfl, .invalidSymbol rfl h1⟩
  | some i1 =>
    cases h2 : indexOf α s2 with
    | none =>
      rw [decodePair_of_second_invalid h1 h2] at h
      cases h
      exact ⟨1, rfl, .invalidSymbol rfl h2⟩
    | some i2 =>
      rw [decodePair_of_valid h1 h2] at h
      split at h
      next hover =>
        cases h
        exact ⟨0, rfl, .pairOverflow hover.2 rfl rfl rfl h1 h2 hover.1⟩
      next => cases h

theorem decodeTail_errorAt {α : List Byte} {ts : Bool} {pos p : Nat} {s : Byte} {c : ErrorCode}
    (h : decodeTail α ts pos s = .err c p) (ps : Bool) :
    p = pos ∧ SymbolErrorAt α ps ts [s] c 0 := by
  cases hs : indexOf α s with
  | none =>
    rw [decodeTail_of_invalid hs] at h
    cases h
    exact ⟨rfl, .invalidSymbol rfl hs⟩
  | some i =>
    rw [decodeTail_of_valid hs] at h
    split at h
    next hover =>
      cases h
      exact ⟨rfl, .tailOverflow hover.2 rfl rfl rfl hs hover.1⟩
    next => cases h

theorem Scan.prepend_eq_err {r : Scan} {G : List Bool} {c : ErrorCode} {p : Nat}
    (h : r.prepend G = .err c p) : r = .err c p := by
  cases r with
  | bits A => cases h
  | err c' p' => exact h

/-- A scan reports its error at the position where it starts plus the index of the fault. -/
theorem scanSymbols_errorAt {α S : List Byte} {ps ts : Bool} {pos p : Nat} {c : ErrorCode}
    (h : scanSymbols α ps ts pos S = .err c p) :
    ∃ k, p = pos + k ∧ SymbolErrorAt α ps ts S c k := by
  induction pos, S using scanSymbols.induct α ps with
  | case1 pos => cases h
  | case2 pos s =>
    obtain ⟨rfl, hat⟩ := decodeTail_errorAt h ps
    exact ⟨0, rfl, hat⟩
  | case3 pos s1 s2 rest c' p' hpair =>
    rw [scanSymbols_cons_of_err hpair] at h
    cases h
    exact decodePair_errorAt hpair ts rest
  | case4 pos s1 s2 rest G hpair ih =>
    rw [scanSymbols_cons_of_bits hpair] at h
    obtain ⟨k, rfl, hat⟩ := ih (Scan.prepend_eq_err h)
    exact ⟨k + 2, by omega, hat.cons_pair s1 s2⟩

theorem dec_errorAt {α S : List Byte} {ps ts : Bool} {c : ErrorCode} {pos : Nat}
    (h : dec α S ps ts = .err c pos) : SymbolErrorAt α ps ts S c pos := by
  rw [dec] at h
  split at h
  next => cases h
  next hscan =>
    cases h
    obtain ⟨k, hk, hat⟩ := scanSymbols_errorAt hscan
    rwa [hk, Nat.zero_add]

/-! ## The error codes (R117, R120) -/

theorem ErrorCode.code_ne_zero (c : ErrorCode) : c.code ≠ 0 := by
  cases c <;> decide

theorem ErrorCode.code_injective : Function.Injective ErrorCode.code := by
  intro c d h
  cases c <;> cases d <;> simp_all [ErrorCode.code]

/-- The errors of ENC and DEC clear the output and keep RESULT. -/
theorem ErrorCode.clears_of_codec {c : ErrorCode}
    (h : c.code = 1 ∨ c.code = 2 ∨ c.code = 3 ∨ c.code = 4) :
    c.clearsOutput = true ∧ c.clearsResult = false := by
  cases c with
  | badArg | badOpcode => exact absurd h (by decide)
  | _ => exact ⟨rfl, rfl⟩

theorem State.completeErr_keptByCodec {c : ErrorCode} (pos : Nat) (s : State)
    (hc : c.clearsResult = false) : s.KeptByCodec (s.completeErr c pos) :=
  ⟨by simp [hc], s.completeErr_keepsOthers c pos⟩

/-! ## What raises an error (R111 to R116) -/

/-- The word that raises each error, what it raises it for, and the position it reports. -/
inductive Raises (s : State) (l : Latch) : Decoded → ErrorCode → Nat → Prop
  /-- R114: a length above IN_CAP. -/
  | badLength {i : Instr} (hi : i = .enc ∨ i = .dec) (hlen : s.config.inCap < l.len.toNat) :
      Raises s l (.command i) .badLength 0
  /-- R111 to R113: the first error of the scan of the input. -/
  | scan {c : ErrorCode} {pos : Nat} (hdec : dec s.config.alphabet (s.input l) l.ps l.ts = .err c pos) :
      Raises s l (.command .dec) c pos
  /-- R115: an operand above 90. -/
  | badArg (harg : 90 < l.arg.toNat) : Raises s l (.command .sym) .badArg 0
  /-- R116: a reserved word. -/
  | badOpcode (why : ReservedWord) : Raises s l (.reserved why) .badOpcode 0

/-- ERR_POS can hold the position: an index of the input is below a 32-bit length. -/
theorem Raises.pos_lt {s : State} {l : Latch} {w : Decoded} {c : ErrorCode} {pos : Nat}
    (h : Raises s l w c pos) : pos < 2 ^ 32 := by
  cases h with
  | scan hdec =>
    obtain ⟨-, hpos⟩ := dec_err hdec
    rw [State.length_input] at hpos
    exact hpos.trans l.len.isLt
  | _ => decide

/-- The symbol errors are those of a DEC's scan. -/
theorem Raises.scan_of_symbolError {s : State} {l : Latch} {w : Decoded} {c : ErrorCode} {pos : Nat}
    (h : Raises s l w c pos) (hc : c.code = 1 ∨ c.code = 2 ∨ c.code = 3) :
    w = .command .dec ∧ dec s.config.alphabet (s.input l) l.ps l.ts = .err c pos := by
  cases h with
  | scan hdec => exact ⟨rfl, hdec⟩
  | _ => exact absurd hc (by decide)

/-- Every other error is reported at position 0. -/
theorem Raises.pos_eq_zero {s : State} {l : Latch} {w : Decoded} {c : ErrorCode} {pos : Nat}
    (h : Raises s l w c pos) (hc : c.code = 4 ∨ c.code = 5 ∨ c.code = 6) : pos = 0 := by
  cases h with
  | scan hdec =>
    obtain ⟨rfl | rfl | rfl, -⟩ := dec_err hdec
    all_goals exact absurd hc (by decide)
  | _ => rfl

theorem Raises.of_badLength {s : State} {l : Latch} {w : Decoded} {pos : Nat}
    (h : Raises s l w .badLength pos) :
    (w = .command .enc ∨ w = .command .dec) ∧ s.config.inCap < l.len.toNat := by
  cases h with
  | badLength hi hlen => exact ⟨hi.imp (congrArg _) (congrArg _), hlen⟩
  | scan hdec =>
    obtain ⟨hc, -⟩ := dec_err hdec
    simp at hc

/-! ## The outcome of a completion -/

/-- `t` is the error completion of `s` with an error that the word raises; the input may have been read,
so the count of draws may have moved. -/
def State.EndsInError (s : State) (l : Latch) (w : Decoded) (t : State) : Prop :=
  ∃ c pos d, Raises s l w c pos ∧ t = State.completeErr c pos { s with draws := d }

theorem exec_outcome {i : Instr} {s t : State} {l : Latch} (hl : s.latch = some l)
    (h : exec i s = .next t) : t.Succeeded ∨ s.EndsInError l (.command i) t := by
  cases i with
  | enc =>
    obtain ⟨l', hl', ⟨hlen, rfl⟩ | ⟨-, rfl⟩⟩ := execEnc_cases h
    all_goals cases hl.symm.trans hl'
    · exact .inr ⟨_, _, _, .badLength (.inl rfl) hlen, rfl⟩
    · exact .inl (State.completeBytes_succeeded ..)
  | dec =>
    obtain ⟨l', hl', ⟨hlen, rfl⟩ | ⟨-, O, -, rfl⟩ | ⟨-, c, pos, hdec, rfl⟩⟩ := execDec_cases h
    all_goals cases hl.symm.trans hl'
    · exact .inr ⟨_, _, _, .badLength (.inr rfl) hlen, rfl⟩
    · exact .inl (State.completeBytes_succeeded ..)
    · exact .inr ⟨c, pos, _, .scan hdec, rfl⟩
  | sym =>
    obtain ⟨l', hl', ⟨harg, rfl⟩ | ⟨-, rfl⟩⟩ := execSym_cases h
    all_goals cases hl.symm.trans hl'
    · exact .inr ⟨_, _, _, .badArg harg, rfl⟩
    · exact .inl (State.completeByte_succeeded ..)
  | idx =>
    obtain ⟨-, -, rfl⟩ := execIdx_cases h
    exact .inl (State.completeByte_succeeded ..)

theorem engineStep_outcome {s t : State} {l : Latch} (hb : s.busy = true) (hl : s.latch = some l)
    (h : engineStep s = .next t) : t.Succeeded ∨ s.EndsInError l (decode l.op) t := by
  obtain ⟨hidle, -⟩ | ⟨-, l', hl', hrun⟩ := engineStep_cases h
  · simp [hb] at hidle
  · cases hl.symm.trans hl'
    obtain ⟨i, hd, hx⟩ | ⟨why, hd, rfl⟩ := hrun
    · rw [hd]
      exact exec_outcome hl hx
    · rw [hd]
      exact .inr ⟨_, _, _, .badOpcode why, rfl⟩

/-- ERR says which of the two outcomes it is. -/
theorem State.EndsInError.of_err {s t : State} {l : Latch} {w : Decoded}
    (h : t.Succeeded ∨ s.EndsInError l w t) (herr : t.err = true) : s.EndsInError l w t :=
  h.resolve_left fun hok => by simp [hok.err] at herr

/-- ERRCODE names the error that was raised, ERR_POS its position. -/
theorem Raises.of_errCode {s t : State} {l : Latch} {w : Decoded} {c : ErrorCode}
    (h : t.Succeeded ∨ s.EndsInError l w t) (hc : t.errCode = c.code) :
    Raises s l w c t.errPos.toNat := by
  obtain hok | ⟨c', pos, d, hraise, rfl⟩ := h
  · exact absurd (hc.symm.trans hok.errCode) c.code_ne_zero
  · have hfailed := State.completeErr_failed c' { s with draws := d } hraise.pos_lt
    cases ErrorCode.code_injective (hfailed.errCode.symm.trans hc)
    rwa [hfailed.errPos]

/-- The symbol error that ERRCODE names is DEC's, and ERR_POS is the index of its fault in the input. -/
theorem engineStep_symbolError {s t : State} {l : Latch} {c : ErrorCode} (hb : s.busy = true)
    (hl : s.latch = some l) (h : engineStep s = .next t) (hcode : t.errCode = c.code)
    (hc : c.code = 1 ∨ c.code = 2 ∨ c.code = 3) :
    l.op = encode .dec ∧ SymbolErrorAt s.config.alphabet l.ps l.ts (s.input l) c t.errPos.toNat := by
  obtain ⟨hd, hdec⟩ := (Raises.of_errCode (engineStep_outcome hb hl h) hcode).scan_of_symbolError hc
  exact ⟨decode_eq_command hd, dec_errorAt hdec⟩

/-- Settles O35: each code names one kind of fault (`engineStep_symbolError`). -/
theorem symbolErrorsPointAtCause : Obligations.SymbolErrorsPointAtCause := by
  intro s t l hb hl h
  have key {c : ErrorCode} (hcode : t.errCode = c.code) := engineStep_symbolError hb hl h hcode
  refine ⟨fun hcode => ?invalid, fun hcode => ?pair, fun hcode => ?tail⟩
  case invalid =>
    obtain ⟨hop, hat⟩ := key (c := .invalidSymbol) hcode (by decide)
    cases hat with
    | invalidSymbol hb hinvalid => exact ⟨hop, _, hb, hinvalid⟩
  case pair =>
    obtain ⟨hop, hat⟩ := key (c := .pairOverflow) hcode (by decide)
    cases hat with
    | pairOverflow hps heven hs1 hs2 hi1 hi2 hover =>
      exact ⟨hop, hps, _, _, _, _, heven, hs1, hs2, hi1, hi2, hover⟩
  case tail =>
    obtain ⟨hop, hat⟩ := key (c := .tailOverflow) hcode (by decide)
    cases hat with
    | tailOverflow hts hodd hlast hb hi hover =>
      rw [State.length_input] at hodd hlast
      exact ⟨hop, hts, hodd, hlast, _, _, hb, hi, hover⟩

/-! ## BAD_LENGTH (R114) -/

theorem exec_codec_of_lt {i : Instr} {s : State} {l : Latch} (hi : i = .enc ∨ i = .dec)
    (hl : s.latch = some l) (hlen : s.config.inCap < l.len.toNat) :
    exec i s = .next (s.completeErr .badLength 0) := by
  obtain rfl | rfl := hi
  · exact (withLatch_some _ hl).trans (congrArg _ (if_pos hlen))
  · exact exec_dec_of_lt hl hlen

/-- Settles O36: the completion is `completeErr` of the state as it was, so replacing IN_BUF before it or
after it is the same. -/
theorem badLengthBeforeAnyRead : Obligations.BadLengthBeforeAnyRead := by
  intro s l hl
  refine ⟨fun hlen i hi => ?outcome, fun hb t h hcode => ?cause⟩
  case outcome =>
    have hother (m : Memory) : exec i { s with inBuf := m } =
        .next { s.completeErr .badLength 0 with inBuf := m } :=
      exec_codec_of_lt (s := { s with inBuf := m }) hi hl hlen
    exact ⟨_, exec_codec_of_lt hi hl hlen, s.completeErr_failed _ (by decide), rfl, fun _ => rfl, rfl,
      s.completeErr_keptByCodec _ rfl, hother⟩
  case cause =>
    obtain ⟨hw, hlen⟩ :=
      (Raises.of_errCode (c := .badLength) (engineStep_outcome hb hl h) hcode).of_badLength
    exact ⟨hw.imp decode_eq_command decode_eq_command, hlen⟩

/-! ## The errors of each command (R118) -/

/-- Settles O37: the cases of `Raises` for each word, those of DEC by what its scan points at. -/
theorem errorsOfEachCommand : Obligations.ErrorsOfEachCommand := by
  intro s t l hl
  refine ⟨fun h herr => ?enc, fun h herr => ?dec, fun h herr => ?sym, fun h => ?idx,
    fun hb hop h => ?reserved⟩
  case enc =>
    obtain ⟨c, pos, d, hraise, rfl⟩ := State.EndsInError.of_err (exec_outcome hl h) herr
    cases hraise with
    | badLength hi hlen => rfl
  case dec =>
    obtain ⟨c, pos, d, hraise, rfl⟩ := State.EndsInError.of_err (exec_outcome hl h) herr
    cases hraise with
    | badLength hi hlen => exact .inl rfl
    | scan hdec =>
      cases dec_errorAt hdec with
      | invalidSymbol => exact .inr (.inl rfl)
      | pairOverflow hps => exact .inr (.inr (.inl ⟨rfl, hps⟩))
      | tailOverflow hts => exact .inr (.inr (.inr ⟨rfl, hts⟩))
  case sym =>
    obtain ⟨c, pos, d, hraise, rfl⟩ := State.EndsInError.of_err (exec_outcome hl h) herr
    cases hraise with
    | badLength hi hlen => simp at hi
    | badArg harg => rfl
  case idx =>
    rw [exec_idx_of_latched hl] at h
    cases h
    exact ⟨rfl, rfl⟩
  case reserved =>
    rw [engineStep_of_reserved hb hl hop] at h
    cases h
    exact ⟨rfl, rfl⟩

/-! ## The write-back of an error (R120) -/

/-- Settles O38: the completion is `completeErr`, so each clause is its write-back at the codes named. -/
theorem errorWriteBack : Obligations.ErrorWriteBack := by
  intro s t l hb hl h herr
  obtain ⟨hcompleted, hkeeps⟩ := engineStep_completes hb h
  obtain ⟨c, pos, d, hraise, rfl⟩ := State.EndsInError.of_err (engineStep_outcome hb hl h) herr
  have hfailed := State.completeErr_failed c { s with draws := d } hraise.pos_lt
  refine ⟨hcompleted, hkeeps, fun hcode => ?symbol, fun hcode => ?zero, fun hcode => ?codec,
    fun hcode => ?badArg, fun hcode => ?badOpcode⟩
  case symbol =>
    obtain ⟨-, hdec⟩ := hraise.scan_of_symbolError hcode
    exact ⟨c, pos, hdec, rfl, hfailed.errPos⟩
  case zero =>
    rw [State.completeErr_errPos, hraise.pos_eq_zero hcode]
    rfl
  case codec =>
    obtain ⟨hout, hres⟩ := ErrorCode.clears_of_codec hcode
    simp [hout, hres]
  case badArg =>
    cases ErrorCode.code_injective (a₁ := c) (a₂ := .badArg) hcode
    exact ⟨rfl, rfl, fun _ => rfl⟩
  case badOpcode =>
    cases ErrorCode.code_injective (a₁ := c) (a₂ := .badOpcode) hcode
    exact ⟨rfl, rfl, fun _ => rfl⟩

end Sys2Proof.Machine

/-! # O60: what a reset leaves, and what the Host then reads. -/

namespace Sys2Proof.Machine

theorem step_of_reset {s : State} (hn : s.ResetIsNext) : step s = .next s.popTurn.resetAction := by
  rw [step_eq_takeTurn, s.resetIsNext_iff.1 hn]
  rfl

/-- Each of the 16 words of the REG space is a register or a reserved offset (R18, R31). -/
theorem exists_regAt_of_lt {k : Nat} (hk : k < 16) : ∃ r, regAt (4 * k) = some r :=
  Option.ne_none_iff_exists'.1 ((regAt_ne_none_iff (4 * k)).2 (by omega))

theorem State.resetAction_statusWord (s : State) : s.resetAction.statusWord = 0 := by
  simp only [State.statusWord, State.resetAction_errCode, State.resetAction_werr,
    State.resetAction_err, State.resetAction_done, State.resetAction_busy]
  rfl

theorem State.resetAction_cfgWord (s : State) : s.resetAction.cfgWord = 0 := by
  simp only [State.cfgWord, State.resetAction_cfgTailStrict, State.resetAction_cfgPairStrict,
    State.resetAction_cfgIe]
  rfl

/-- The fields a register shows are 0 after reset, BUSY among them, so that a result is no draw. -/
theorem State.resetAction_readReg (s : State) (r : Reg) :
    (s.resetAction.readReg r).readData = .word 0 := by
  cases r with
  | cmd => rfl
  | status => exact congrArg ReadData.word s.resetAction_statusWord
  | cfg => exact congrArg ReadData.word s.resetAction_cfgWord
  | srcLen => rfl
  | dstLen => rfl
  | arg => rfl
  | result => rfl
  | errPos => rfl
  | reserved => rfl

/-- Settles O60: the fields are those of `resetAction`; a Host read goes to the register or byte it
names, and the Engine's turn finds BUSY 0. -/
theorem resetAction : Obligations.ResetAction := by
  intro s hn
  refine ⟨_, step_of_reset hn, ⟨rfl, rfl, rfl, rfl, rfl, rfl, rfl, rfl⟩,
    ⟨rfl, rfl, rfl, rfl, rfl, rfl⟩, fun a => ⟨rfl, rfl⟩, rfl, rfl, fun i hi => ?readIn,
    fun i hi => ?readOut, fun k hk => ?readReg, engineStep_of_idle rfl⟩
  case readIn => rw [State.hostAccess_readInAccess hi]; rfl
  case readOut => rw [State.hostAccess_readOutAccess hi]; rfl
  case readReg =>
    obtain ⟨r, hr⟩ := exists_regAt_of_lt hk
    rw [State.hostAccess_readAccess _ hr]
    exact s.popTurn.resetAction_readReg r

end Sys2Proof.Machine

/-! # O31, O17, O18, O27, O28 and O33: what ENC and DEC leave, and the round trip through the block

Each command is said once of `State.input`, the bytes it reads.  A written input is exactly that list
(`State.InputIs.input_eq`), and so is a fetched one (`State.fetches_iff`). -/

namespace Sys2Proof.Machine

/-- Settles O31: decode is a left inverse of encode (`dec_enc`). -/
theorem roundTrip : Obligations.RoundTrip := fun _ B ps ts h => dec_enc h B ps ts

/-! ## A written input (R46, R53) -/

theorem State.InputIs.fetch_eq {s : State} {l : Latch} {B : List Byte} (h : s.InputIs l B) :
    s.inBuf.fetch l.length 0 s.draws = (B, s.draws) := by
  obtain ⟨hlen, hread⟩ := h
  rw [Latch.length, ← hlen]
  exact Memory.fetch_of_read fun k hk => by rw [Nat.zero_add, hread k hk]

theorem State.InputIs.input_eq {s : State} {l : Latch} {B : List Byte} (h : s.InputIs l B) :
    s.input l = B :=
  congrArg Prod.fst h.fetch_eq

/-- A written input costs no draw. -/
theorem State.InputIs.afterInput_draws {s : State} {l : Latch} {B : List Byte} (h : s.InputIs l B) :
    (s.afterInput l).draws = s.draws :=
  congrArg Prod.snd h.fetch_eq

/-! ## The completions of ENC and DEC (R41, R120) -/

theorem State.toNat_lengthWord {n : Nat} (s : State) (h : n < 2 ^ 32) : (s.lengthWord n).toNat = n := by
  rw [State.lengthWord, if_pos h]
  exact Nat.mod_eq_of_lt h

theorem State.drawsAfterLength_of_lt {n : Nat} (s : State) (h : n < 2 ^ 32) :
    s.drawsAfterLength n = s.draws :=
  if_pos h

theorem State.completeBytes_keptByCodec (O : List Byte) (s : State) (l : Latch) :
    s.KeptByCodec ((s.afterInput l).completeBytes O) :=
  ⟨rfl, (State.completeBytes_keepsOthers ..).of_afterInput⟩

theorem encLen_mono {M N : Nat} (h : M ≤ N) : encLen M ≤ encLen N := by
  obtain ⟨-, -, -, hmono, -⟩ := encodedLength
  exact hmono M N h

/-- What ENC emits for an input within IN_CAP fits in OUT_BUF, by R7. -/
theorem length_enc_le_outCap {c : Config} (hc : c.wf) {B : List Byte} (hB : B.length ≤ c.inCap) :
    (enc c.alphabet B).length ≤ c.outCap := by
  obtain ⟨-, -, hcap, -⟩ := hc
  exact (length_enc _ B).trans_le ((encLen_mono hB).trans hcap)

/-- A decode of a latched input gives a length that DST_LEN can hold. -/
theorem decLen_lt (l : Latch) : decLen l.len.toNat < 2 ^ 32 :=
  (decLen_le _).trans_lt l.len.isLt

/-- DEC where its input decodes (R102). -/
theorem exec_dec_of_ok {s : State} {l : Latch} {O : List Byte} (hl : s.latch = some l)
    (hlen : l.len.toNat ≤ s.config.inCap)
    (hdec : dec s.config.alphabet (s.input l) l.ps l.ts = .ok O) :
    ∃ t, exec .dec s = .next t ∧ t.Succeeded ∧ (∀ a, t.outBuf.read a = O[a]?) ∧
      t.dstLen.toNat = decLen l.len.toNat ∧ t.draws = (s.afterInput l).draws ∧ s.KeptByCodec t := by
  have hO : O.length = decLen l.len.toNat := by rw [length_of_dec hdec, State.length_input]
  have hfits : O.length < 2 ^ 32 := hO ▸ decLen_lt l
  have hexec := exec_dec_of_le hl hlen
  rw [hdec, State.completeDec] at hexec
  exact ⟨_, hexec, State.completeBytes_succeeded .., Memory.read_ofBytes O,
    (State.toNat_lengthWord _ hfits).trans hO, State.drawsAfterLength_of_lt _ hfits,
    State.completeBytes_keptByCodec ..⟩

/-- The errors of a scan clear the output and keep RESULT. -/
theorem clears_of_dec_err {α S : List Byte} {ps ts : Bool} {c : ErrorCode} {pos : Nat}
    (h : dec α S ps ts = .err c pos) : c.clearsOutput = true ∧ c.clearsResult = false := by
  obtain ⟨rfl | rfl | rfl, -⟩ := dec_err h
  all_goals exact ⟨rfl, rfl⟩

/-- DEC where its input does not decode (R102). -/
theorem exec_dec_of_err {s : State} {l : Latch} {c : ErrorCode} {pos : Nat} (hl : s.latch = some l)
    (hlen : l.len.toNat ≤ s.config.inCap)
    (hdec : dec s.config.alphabet (s.input l) l.ps l.ts = .err c pos) :
    ∃ t, exec .dec s = .next t ∧ t.Failed c pos ∧ t.dstLen = 0 ∧ (∀ a, t.outBuf.read a = none) ∧
      t.draws = (s.afterInput l).draws ∧ s.KeptByCodec t := by
  obtain ⟨hout, hres⟩ := clears_of_dec_err hdec
  have hpos : pos < 2 ^ 32 := (Raises.scan hdec).pos_lt
  have hexec := exec_dec_of_le hl hlen
  rw [hdec, State.completeDec] at hexec
  exact ⟨_, hexec, State.completeErr_failed _ _ hpos, by simp [hout], fun a => by simp [hout], rfl,
    by simp [hres], (State.completeErr_keepsOthers ..).of_afterInput⟩

/-! ## The statements -/

/-- Settles O17: `exec_enc_of_le` at the bytes written. -/
theorem encCompletesOnWrittenInput : Obligations.EncCompletesOnWrittenInput := by
  intro s l B hl hB hlen hfits
  have hexec := exec_enc_of_le hl hlen
  rw [hB.input_eq] at hexec
  have hBlen : B.length = l.len.toNat := hB.1
  have hO : (enc s.config.alphabet B).length = encLen l.len.toNat := by rw [length_enc, hBlen]
  rw [← hO] at hfits ⊢
  exact ⟨_, hexec, State.completeBytes_succeeded .., Memory.read_ofBytes _,
    State.toNat_lengthWord _ hfits, (State.drawsAfterLength_of_lt _ hfits).trans hB.afterInput_draws,
    State.completeBytes_keptByCodec ..⟩

/-- Settles O18: `exec_enc_of_le` at the bytes fetched; the output fits, as R7 makes the longest one
fit. -/
theorem encCompletesOnAnyInput : Obligations.EncCompletesOnAnyInput := by
  intro s l hwf hl hlen
  have ⟨_, _, _, hα⟩ := hwf
  have hO : (enc s.config.alphabet (s.input l)).length = encLen l.len.toNat := by
    rw [length_enc, State.length_input]
  refine ⟨_, s.input l, _, exec_enc_of_le hl hlen, State.completeBytes_succeeded ..,
    (s.fetches_iff l _).2 rfl, rfl, hO, ?fits, fun b => mem_of_mem_enc hα, Memory.read_ofBytes _,
    fun hfits => ?length, State.completeBytes_keptByCodec ..⟩
  case fits => exact length_enc_le_outCap hwf ((s.length_input l).trans_le hlen)
  case length =>
    rw [← hO] at hfits ⊢
    exact ⟨State.toNat_lengthWord _ hfits,
      (State.drawsAfterLength_of_lt _ hfits).trans (s.afterInput_draws_eq l)⟩

/-- Settles O27: `exec_dec_of_ok` at the bytes written and at the bytes fetched, which are `State.input`. -/
theorem decCompletesOnValidInput : Obligations.DecCompletesOnValidInput := by
  refine ⟨fun s l S O hl hS hlen hdec => ?written, fun s l S O hl hS hlen hdec => ?fetched,
    fun s l => ⟨s.input l, (s.fetches_iff l _).2 rfl, fun S => (s.fetches_iff l S).1⟩⟩
  case written =>
    rw [← hS.afterInput_draws]
    exact exec_dec_of_ok hl hlen (hS.input_eq ▸ hdec)
  case fetched =>
    rw [← s.afterInput_draws_eq l]
    exact exec_dec_of_ok hl hlen ((s.fetches_iff l S).1 hS ▸ hdec)

/-- Settles O28: `exec_dec_of_err` at the bytes written and at the bytes fetched. -/
theorem decReportsFirstError : Obligations.DecReportsFirstError := by
  refine ⟨fun s l S c pos hl hS hlen hdec => ?written, fun s l S c pos hl hS hlen hdec => ?fetched⟩
  case written =>
    rw [← hS.afterInput_draws]
    exact exec_dec_of_err hl hlen (hS.input_eq ▸ hdec)
  case fetched =>
    rw [← s.afterInput_draws_eq l]
    exact exec_dec_of_err hl hlen ((s.fetches_iff l S).1 hS ▸ hdec)

/-! ## The round trip through the block (R91) -/

/-- Bytes that all stand below a bound are no more than the bound. -/
theorem length_le_of_getElem? {O : List Byte} {n : Nat} (h : ∀ a b, O[a]? = some b → a < n) :
    O.length ≤ n := by
  by_contra hlong
  have hlast : n < O.length := Nat.lt_of_not_le hlong
  exact Nat.lt_irrefl n (h n _ (List.getElem?_eq_getElem hlast))

/-- Settles O33: the copy is the written input of the DEC, and it stands below IN_CAP, so its length fits
in DST_LEN; what it decodes to is the input of the ENC (`dec_enc`). -/
theorem roundTripThroughTheBlock : Obligations.RoundTripThroughTheBlock := by
  intro s t u l m B hwf hl hB hlen hexec hconfig hm hmlen hcopy hbelow
  obtain ⟨-, hcap, -, hα⟩ := hwf
  rw [exec_enc_of_le hl hlen, hB.input_eq] at hexec
  cases hexec
  simp only [State.completeBytes_outBuf, Memory.read_ofBytes] at hcopy
  have hfits : (enc s.config.alphabet B).length ≤ s.config.inCap :=
    length_le_of_getElem? fun a b hab => hconfig ▸ hbelow a b (hcopy a b hab)
  have hmlen : m.len.toNat = (enc s.config.alphabet B).length := by
    rw [hmlen]
    exact State.toNat_lengthWord _ (by omega)
  have hinput : u.InputIs m (enc s.config.alphabet B) := by
    refine ⟨hmlen.symm, fun a ha => ?_⟩
    rw [List.getElem?_eq_getElem ha]
    exact hcopy a _ (List.getElem?_eq_getElem ha)
  have hdec : dec u.config.alphabet (u.input m) m.ps m.ts = .ok B := by
    rw [hinput.input_eq, hconfig]
    exact dec_enc hα B m.ps m.ts
  obtain ⟨v, hv, hok, hout, hdst, -⟩ := exec_dec_of_ok hm (by rw [hmlen, hconfig]; exact hfits) hdec
  exact ⟨v, hv, hok, hout, by rw [hdst, hmlen, length_enc, decLen_encLen]⟩

end Sys2Proof.Machine

/-! # O26: with both strict bits 0, what decodes is what consists of symbols. -/

namespace Sys2Proof.Machine

theorem exists_indexOf_of_mem {α : List Byte} {b : Byte} (h : Alphabet.wf α) (hb : b ∈ α) :
    ∃ i, indexOf α b = some i := by
  obtain ⟨i, hi⟩ := List.mem_iff_getElem?.1 hb
  exact ⟨i, indexOf_of_getElem? h hi⟩

theorem decodePair_of_symbols {α : List Byte} {s1 s2 : Byte} (h : Alphabet.wf α) (h1 : s1 ∈ α)
    (h2 : s2 ∈ α) (pos : Nat) : ∃ G, decodePair α false pos s1 s2 = .bits G := by
  obtain ⟨i1, hi1⟩ := exists_indexOf_of_mem h h1
  obtain ⟨i2, hi2⟩ := exists_indexOf_of_mem h h2
  rw [decodePair_of_valid hi1 hi2, if_neg (by simp)]
  exact ⟨_, rfl⟩

theorem decodeTail_of_symbol {α : List Byte} {s : Byte} (h : Alphabet.wf α) (hs : s ∈ α) (pos : Nat) :
    ∃ G, decodeTail α false pos s = .bits G := by
  obtain ⟨i, hi⟩ := exists_indexOf_of_mem h hs
  rw [decodeTail_of_valid hi, if_neg (by simp)]
  exact ⟨_, rfl⟩

theorem scanSymbols_of_symbols {α S : List Byte} (h : Alphabet.wf α) (hS : ∀ b ∈ S, b ∈ α) (pos : Nat) :
    ∃ A, scanSymbols α false false pos S = .bits A := by
  induction pos, S using scanSymbols.induct α false with
  | case1 pos => exact ⟨[], rfl⟩
  | case2 pos s => exact decodeTail_of_symbol h (hS s (List.mem_singleton_self s)) pos
  | case3 pos s1 s2 rest c p hpair =>
    obtain ⟨h1, h2, -⟩ := List.forall_mem_cons.1 hS |>.imp_right List.forall_mem_cons.1
    obtain ⟨G, hG⟩ := decodePair_of_symbols h h1 h2 pos
    rw [hpair] at hG
    cases hG
  | case4 pos s1 s2 rest G hpair ih =>
    obtain ⟨-, -, hrest⟩ := List.forall_mem_cons.1 hS |>.imp_right List.forall_mem_cons.1
    obtain ⟨A, hA⟩ := ih hrest
    exact ⟨G ++ A, by rw [scanSymbols_cons_of_bits hpair, hA, Scan.prepend]⟩

/-- Settles O26: symbols scan without an error, and a byte that is none ends every scan
(`dec_of_invalid`). -/
theorem symbolsDecodeUnderResetConfig : Obligations.SymbolsDecodeUnderResetConfig := by
  refine fun α S h => ⟨fun hS => ?decodes, fun ⟨O, hO⟩ b hb => ?symbols⟩
  case decodes =>
    obtain ⟨A, hA⟩ := scanSymbols_of_symbols h hS 0
    exact ⟨regroup A, by rw [dec, hA]⟩
  case symbols =>
    by_contra hno
    obtain ⟨c, p, herr, -⟩ := dec_of_invalid (indexOf_of_not_mem hno) hb false false
    rw [hO] at herr
    cases herr

end Sys2Proof.Machine

/-! # O21 and O30: the reference datapaths

`Accumulator.Holds` reads an accumulator as the bit sequence that has been loaded and not yet taken off.
Under it `load` appends bits (`Holds.load`), and `top` and `drop` split off the oldest ones (`Holds.top`,
`Holds.drop`), so that both loops are recursions on a bit sequence. -/

namespace Sys2Proof.Machine

/-! ## The accumulator as a bit sequence -/

/-- NACC bits are held, and ACC is their value. -/
structure Accumulator.Holds (r : Accumulator) (T : List Bool) : Prop where
  nacc : r.nacc = T.length
  acc : r.acc.toNat = val T

theorem Accumulator.holds_empty : Accumulator.empty.Holds [] := ⟨rfl, rfl⟩

/-- What fits in `m ≤ 20` bits loses nothing when ACC is shifted. -/
theorem toNat_shiftLeft_of_lt {x : BitVec 20} {k m : Nat} (h : x.toNat * 2 ^ k < 2 ^ m) (hm : m ≤ 20) :
    (x <<< k).toNat = x.toNat * 2 ^ k := by
  rw [BitVec.toNat_shiftLeft, Nat.shiftLeft_eq]
  exact Nat.mod_eq_of_lt (h.trans_le (Nat.pow_le_pow_right (by decide) hm))

theorem val_mul_lt (T : List Bool) (k : Nat) : val T * 2 ^ k < 2 ^ (T.length + k) := by
  rw [Nat.pow_add]
  exact Nat.mul_lt_mul_of_pos_right (val_lt T) (Nat.two_pow_pos k)

/-- Shifting ACC pads the bits held with zeros on the right. -/
theorem Accumulator.Holds.toNat_shiftLeft {r : Accumulator} {T : List Bool} (h : r.Holds T) {k : Nat}
    (hk : T.length + k ≤ 20) : (r.acc <<< k).toNat = val (T ++ zeros k) := by
  rw [val_append_zeros, ← h.acc]
  exact toNat_shiftLeft_of_lt (h.acc ▸ val_mul_lt T k) hk

/-- Loading `n` bits appends them: the shift leaves `n` zeros for them. -/
theorem Accumulator.Holds.load {r : Accumulator} {T : List Bool} (h : r.Holds T) {G : List Bool} {n : Nat}
    (hG : G.length = n) (hroom : T.length + n ≤ 20) : (r.load n (val G)).Holds (T ++ G) := by
  have hval : val G < 2 ^ n := val_lt_of_length_eq hG
  have hword : val G < 2 ^ 20 := hval.trans_le (Nat.pow_le_pow_right (by decide) (by omega))
  refine ⟨by rw [List.length_append, hG, ← h.nacc]; rfl, ?_⟩
  calc (r.load n (val G)).acc.toNat
      = (r.acc <<< n).toNat ||| val G := by
        rw [Accumulator.load, BitVec.toNat_or, BitVec.toNat_ofNat, Nat.mod_eq_of_lt hword]
    _ = val T <<< n ||| val G := by
        rw [h.toNat_shiftLeft hroom, val_append_zeros, Nat.shiftLeft_eq]
    _ = val (T ++ G) := by
        rw [← Nat.shiftLeft_add_eq_or_of_lt hval, Nat.shiftLeft_eq, val_append, hG]

theorem val_append_div (C R : List Bool) : val (C ++ R) / 2 ^ R.length = val C := by
  rw [val_append, Nat.mul_comm, Nat.mul_add_div (Nat.two_pow_pos _), Nat.div_eq_of_lt (val_lt R),
    Nat.add_zero]

theorem val_append_mod (C R : List Bool) : val (C ++ R) % 2 ^ R.length = val R := by
  rw [val_append, Nat.mul_add_mod_self_right, Nat.mod_eq_of_lt (val_lt R)]

theorem Accumulator.Holds.nacc_sub {r : Accumulator} {C R : List Bool} (h : r.Holds (C ++ R)) :
    r.nacc - C.length = R.length := by
  rw [h.nacc, List.length_append, Nat.add_sub_cancel_left]

/-- `top` reads the oldest bits. -/
theorem Accumulator.Holds.top {r : Accumulator} {C R : List Bool} (h : r.Holds (C ++ R)) :
    r.top C.length = val C := by
  rw [Accumulator.top, h.nacc_sub, BitVec.toNat_ushiftRight, Nat.shiftRight_eq_div_pow, h.acc,
    val_append_div]

/-- `drop` takes the oldest bits off: the mask keeps the others. -/
theorem Accumulator.Holds.drop {r : Accumulator} {C R : List Bool} (h : r.Holds (C ++ R))
    (hR : R.length ≤ 20) : (r.drop C.length).Holds R := by
  have hmask : 2 ^ R.length - 1 < 2 ^ 20 := by
    have hpow : 2 ^ R.length ≤ 2 ^ 20 := Nat.pow_le_pow_right (by decide) hR
    omega
  refine ⟨h.nacc_sub, ?_⟩
  rw [Accumulator.drop, h.nacc_sub, BitVec.toNat_and, BitVec.toNat_ofNat, Nat.mod_eq_of_lt hmask,
    Nat.and_two_pow_sub_one_eq_mod, h.acc, val_append_mod]

/-! ## The encoder's datapath (R90) -/

/-- The stop of R90 emits the group of the final chunk. -/
theorem Accumulator.Holds.flush {r : Accumulator} {T : List Bool} (h : r.Holds T) (hT : T.length < 13)
    (α : List Byte) : r.flush α = finalGroup α T := by
  rw [Accumulator.flush, finalGroup, h.nacc]
  rcases Nat.lt_or_ge 6 T.length with hpair | hsingle
  · rw [if_neg (by omega), if_neg (by omega), if_neg (by omega), if_neg (by omega),
      h.toNat_shiftLeft (by omega)]
  · rw [if_pos hsingle, if_pos hsingle, h.toNat_shiftLeft (by omega)]

/-- The loop of R90 encodes the bits held and those still to be read. -/
theorem encLoop_eq_encodeBits {α B : List Byte} {r : Accumulator} {T : List Bool} (h : r.Holds T)
    (hT : T.length < 13) : encLoop α r B = encodeBits α (T ++ bitSequence B) := by
  induction B generalizing r T with
  | nil => rw [encLoop, h.flush hT, bitSequence_nil, List.append_nil, encodeBits_of_short α hT]
  | cons b B ih =>
    have hload : (r.load 8 b.toNat).Holds (T ++ bits8 b) := by
      rw [← val_bits8 b]
      exact h.load (length_bits8 b) (by omega)
    have hlen : (T ++ bits8 b).length = T.length + 8 := by rw [List.length_append, length_bits8]
    rw [bitSequence_cons, ← List.append_assoc, encLoop]
    generalize r.load 8 b.toNat = r' at hload
    generalize T ++ bits8 b = U at hload hlen
    rw [hload.nacc]
    split
    next hfull =>
      obtain ⟨C, R, rfl, hC⟩ : ∃ C R, U = C ++ R ∧ C.length = 13 :=
        ⟨U.take 13, U.drop 13, (List.take_append_drop 13 U).symm, by rw [List.length_take]; omega⟩
      have hR : R.length < 13 := by rw [List.length_append] at hlen; omega
      have hdrop := hload.drop (by omega)
      rw [← hC, hload.top, ih hdrop hR, List.append_assoc, encodeBits_append α hC]
    next hshort => exact ih hload (by omega)

/-- Settles O21: the loop from the empty accumulator. -/
theorem encDatapathRefinesEnc : Obligations.EncDatapathRefinesEnc := fun α B =>
  encLoop_eq_encodeBits (α := α) (B := B) (T := []) Accumulator.holds_empty (by decide)

/-! ## The decoder's datapath (R105) -/

/-- Draining emits the whole bytes held and keeps the fewer than eight bits that are left, so regrouping
what is held and more goes on from there. -/
theorem Accumulator.Holds.drain {r : Accumulator} {T : List Bool} (h : r.Holds T) {fuel : Nat}
    (hT : T.length < 8 * (fuel + 1)) (hword : T.length ≤ 20) :
    ∃ R, R.length < 8 ∧ (r.drain fuel).2.Holds R ∧
      ∀ A, regroup (T ++ A) = (r.drain fuel).1 ++ regroup (R ++ A) := by
  induction fuel generalizing r T with
  | zero => exact ⟨T, hT, h, fun A => rfl⟩
  | succ fuel ih =>
    rw [Accumulator.drain, h.nacc]
    split
    next hbyte =>
      obtain ⟨C, U, rfl, hC⟩ : ∃ C U, T = C ++ U ∧ C.length = 8 :=
        ⟨T.take 8, T.drop 8, (List.take_append_drop 8 T).symm, by rw [List.length_take]; omega⟩
      rw [List.length_append] at hT hword
      have hdrop := h.drop (by omega)
      have htop := h.top
      rw [hC] at hdrop htop
      obtain ⟨R, hR, hrest, hregroup⟩ := ih hdrop (by omega) (by omega)
      refine ⟨R, hR, hrest, fun A => ?_⟩
      rw [List.append_assoc, regroup_append _ hC, hregroup, htop]
      rfl
    next hshort => exact ⟨T, by omega, h, fun A => rfl⟩

/-- What a decode gives once `T` is held and the rest has been scanned. -/
def Scan.regroupAfter (T : List Bool) : Scan → DecResult
  | .bits A => .ok (regroup (T ++ A))
  | .err c pos => .err c pos

theorem dec_eq_regroupAfter (α S : List Byte) (ps ts : Bool) :
    dec α S ps ts = (scanSymbols α ps ts 0 S).regroupAfter [] := by
  rw [dec]
  cases scanSymbols α ps ts 0 S <;> rfl

/-- Emitting bytes before the rest of a decode is regrouping the bits they came from before it. -/
theorem Scan.regroupAfter_prepend {T R G : List Bool} {O : List Byte}
    (h : ∀ A, regroup ((T ++ G) ++ A) = O ++ regroup (R ++ A)) (r : Scan) :
    (r.prepend G).regroupAfter T = (r.regroupAfter R).prepend O := by
  cases r with
  | bits A =>
    rw [Scan.prepend, Scan.regroupAfter, ← List.append_assoc, h]
    rfl
  | err c pos => rfl

/-- The loop of R105 regroups the bits held and those still to be scanned. -/
theorem decLoop_eq_regroupAfter {α S : List Byte} {ps ts : Bool} {pos : Nat} {r : Accumulator}
    {T : List Bool} (h : r.Holds T) (hT : T.length < 8) :
    decLoop α ps ts pos r S = (scanSymbols α ps ts pos S).regroupAfter T := by
  induction pos, S using scanSymbols.induct α ps generalizing r T with
  | case1 pos => rw [decLoop, scanSymbols, Scan.regroupAfter, List.append_nil, regroup_of_short hT]
  | case2 pos s =>
    rw [decLoop, scanSymbols]
    cases htail : decodeTail α ts pos s with
    | err c p => rfl
    | bits G =>
      have hG := length_of_decodeTail htail
      have hlen : (T ++ G).length = T.length + 6 := by rw [List.length_append, hG]
      obtain ⟨R, hR, -, hregroup⟩ := (h.load hG (by omega)).drain (fuel := 2) (by omega) (by omega)
      have hout := hregroup []
      rw [List.append_nil, List.append_nil, regroup_of_short hR, List.append_nil] at hout
      exact congrArg DecResult.ok hout.symm
  | case3 pos s1 s2 rest c p hpair =>
    rw [scanSymbols_cons_of_err hpair, decLoop, hpair]
    rfl
  | case4 pos s1 s2 rest G hpair ih =>
    obtain ⟨-, -, hG⟩ := decodePair_eq_bits hpair
    have hlen : (T ++ G).length = T.length + 13 := by rw [List.length_append, hG]
    obtain ⟨R, hR, hheld, hregroup⟩ := (h.load hG (by omega)).drain (fuel := 2) (by omega) (by omega)
    rw [scanSymbols_cons_of_bits hpair, Scan.regroupAfter_prepend hregroup, ← ih hheld hR, decLoop, hpair]

/-- Settles O30: the loop from the empty accumulator. -/
theorem decDatapathRefinesDec : Obligations.DecDatapathRefinesDec := fun α S ps ts =>
  (decLoop_eq_regroupAfter Accumulator.holds_empty (by decide)).trans (dec_eq_regroupAfter α S ps ts).symm

end Sys2Proof.Machine

/-! # O40, O39 and O41: the invariant holds at reset and is kept by every step

The invariant reads eleven fields of the state (`State.Inv.frame`).  The lemmas follow the turns: what each
completion, each Host access and a reset does to it. -/

namespace Sys2Proof.Machine

/-! ## Host accesses and reset -/

/-- The fields the invariant does not read. -/
theorem State.Inv.frame {s : State} (h : s.Inv) (ie ps ts : Bool) (len : Word) (arg : Byte)
    (werr refused : Bool) (draws : Nat) (data : ReadData) (turns : List Turn) :
    State.Inv { s with
      cfgIe := ie, cfgPairStrict := ps, cfgTailStrict := ts, srcLen := len, arg := arg, werr := werr,
      refused := refused, draws := draws, readData := data, schedule := turns } :=
  { h with }

theorem State.Inv.popTurn {s : State} (h : s.Inv) : s.popTurn.Inv := h.frame ..

theorem State.Inv.afterInput {s : State} (h : s.Inv) (l : Latch) : (s.afterInput l).Inv := h.frame ..

/-- Clearing DONE keeps it 0 while BUSY. -/
theorem State.Inv.writeStatus {s : State} (h : s.Inv) (v : Word) : (s.writeStatus v).Inv where
  __ := h
  busy_clears_status hb := by
    obtain ⟨hdone, herr, hcode⟩ := h.busy_clears_status hb
    exact ⟨by rw [State.writeStatus_done, hdone, Bool.false_and], herr, hcode⟩

/-- Accept clears the record of the last error, so what the invariant says of an error is void. -/
theorem State.Inv.accept {s : State} (h : s.Inv) (v : Word) : (s.accept v).Inv where
  __ := h
  busy_iff_latched := rfl
  busy_clears_status _ := ⟨rfl, rfl, rfl⟩
  err_iff_code := by simp
  code_le_six := Nat.zero_le 6
  errPos_zero hb := nomatch hb
  failed_output hlo := nomatch hlo
  badArg_result hcode := nomatch hcode

theorem State.Inv.storeIn {s : State} (h : s.Inv) {i : Nat} (hi : i < s.config.inCap) (b : Byte) :
    (s.storeIn i b).Inv where
  __ := h
  inBuf_wf := Memory.write_wf h.inBuf_wf i b
  inBuf_bound c hc := by
    obtain rfl | hold := Memory.mem_write hc
    · exact hi
    · exact h.inBuf_bound c hold

theorem HostEffect.inv {s t : State} {a : HostAccess} (h : HostEffect s a t) (hs : s.Inv) : t.Inv := by
  cases h with
  | accept v hb => exact hs.accept v
  | writeStatus v => exact hs.writeStatus v
  | storeIn i v hi hb => exact hs.storeIn hi _
  | _ => exact hs.frame ..

theorem State.Inv.resetAction {s : State} (h : s.Inv) : s.resetAction.Inv where
  __ := h
  busy_iff_latched := rfl
  busy_clears_status hb := nomatch hb
  err_iff_code := by simp
  code_le_six := Nat.zero_le 6
  inBuf_wf := Memory.unspecified_wf
  inBuf_bound := nofun
  outBuf_prefix := rfl
  outBuf_bound := Nat.zero_le _
  dstLen_eq _ := rfl
  errPos_zero _ _ := rfl
  failed_output _ _ := ⟨rfl, rfl⟩
  badArg_result _ := rfl

/-! ## Completions -/

/-- A success whose output fits in OUT_BUF (R41). -/
theorem State.Inv.completeBytes {s : State} (h : s.Inv) {O : List Byte}
    (hO : O.length ≤ s.config.outCap) : (s.completeBytes O).Inv where
  __ := h
  busy_iff_latched := rfl
  busy_clears_status hb := nomatch hb
  err_iff_code := by simp
  code_le_six := Nat.zero_le 6
  outBuf_prefix := by
    rw [State.completeBytes_outBuf, Memory.length_ofBytes]
    exact Memory.map_fst_ofBytes O
  outBuf_bound := (Memory.length_ofBytes O).trans_le hO
  dstLen_eq hfits := by
    rw [State.completeBytes_outBuf, Memory.length_ofBytes] at hfits ⊢
    exact s.toNat_lengthWord hfits
  errPos_zero _ _ := rfl
  failed_output hlo := nomatch hlo
  badArg_result hcode := nomatch hcode

theorem State.Inv.completeByte {s : State} (h : s.Inv) (r : Byte) : (s.completeByte r).Inv where
  __ := h
  busy_iff_latched := rfl
  busy_clears_status hb := nomatch hb
  err_iff_code := by simp
  code_le_six := Nat.zero_le 6
  errPos_zero _ _ := rfl
  failed_output hlo := nomatch hlo
  badArg_result hcode := nomatch hcode

theorem ErrorCode.toNat_code_le (c : ErrorCode) : c.code.toNat ≤ 6 := by
  cases c <;> decide

/-- The codes 1 to 4 are those that clear the output (R120). -/
theorem ErrorCode.clearsOutput_of_code_le {c : ErrorCode} (h : c.code.toNat ≤ 4) :
    c.clearsOutput = true := by
  cases c with
  | badArg | badOpcode => exact absurd h (by decide)
  | _ => rfl

/-- The codes from 4 on are reported at position 0 (R120). -/
theorem Raises.pos_eq_zero_of_le {s : State} {l : Latch} {w : Decoded} {c : ErrorCode} {pos : Nat}
    (h : Raises s l w c pos) (hc : 4 ≤ c.code.toNat) : pos = 0 := by
  refine h.pos_eq_zero ?_
  cases c with
  | badLength | badArg | badOpcode => decide
  | _ => exact absurd hc (by decide)

/-- The output of an error completion: nothing, or what it was. -/
theorem State.completeErr_output (c : ErrorCode) (pos : Nat) (s : State) :
    ((s.completeErr c pos).outBuf = [] ∧ (s.completeErr c pos).dstLen = 0) ∨
      ((s.completeErr c pos).outBuf = s.outBuf ∧ (s.completeErr c pos).dstLen = s.dstLen) := by
  cases hc : c.clearsOutput with
  | true => exact .inl (by simp [hc, Memory.unspecified])
  | false => exact .inr (by simp [hc])

/-- An error completion at the position where the error is raised (R120). -/
theorem State.Inv.completeErr {s : State} (h : s.Inv) {c : ErrorCode} {pos : Nat}
    (hpos : 4 ≤ c.code.toNat → pos = 0) : (s.completeErr c pos).Inv where
  __ := h
  busy_iff_latched := rfl
  busy_clears_status hb := nomatch hb
  err_iff_code := iff_of_true rfl c.code_ne_zero
  code_le_six := c.toNat_code_le
  outBuf_prefix := by
    obtain ⟨hout, -⟩ | ⟨hout, -⟩ := s.completeErr_output c pos
    · rw [hout]; rfl
    · rw [hout]; exact h.outBuf_prefix
  outBuf_bound := by
    obtain ⟨hout, -⟩ | ⟨hout, -⟩ := s.completeErr_output c pos
    · rw [hout]; exact Nat.zero_le _
    · rw [hout]; exact h.outBuf_bound
  dstLen_eq := by
    obtain ⟨hout, hdst⟩ | ⟨hout, hdst⟩ := s.completeErr_output c pos
    · rw [hout, hdst]; exact fun _ => rfl
    · rw [hout, hdst]; exact h.dstLen_eq
  errPos_zero _ hcode := by
    rw [State.completeErr_errPos, hpos (hcode.resolve_left c.code_ne_zero)]
    rfl
  failed_output _ hhi := by simp [ErrorCode.clearsOutput_of_code_le hhi, Memory.unspecified]
  badArg_result hcode := by
    cases ErrorCode.code_injective (a₁ := c) (a₂ := .badArg) hcode
    rfl

theorem State.EndsInError.inv {s t : State} {l : Latch} {w : Decoded} (h : s.EndsInError l w t)
    (hs : s.Inv) : t.Inv := by
  obtain ⟨c, pos, d, hraise, rfl⟩ := h
  exact State.Inv.completeErr (hs.frame ..) hraise.pos_eq_zero_of_le

/-- What DEC gives for an input within IN_CAP fits in OUT_BUF (R103). -/
theorem length_dec_le_outCap {c : Config} (hc : c.wf) {α S O : List Byte} {ps ts : Bool}
    (h : dec α S ps ts = .ok O) (hS : S.length ≤ c.inCap) : O.length ≤ c.outCap := by
  obtain ⟨-, -, -, hfits, -⟩ := decodedLength
  exact (length_of_dec h).trans_le (hfits c hc S.length hS)

theorem exec_inv {i : Instr} {s t : State} (hs : s.Inv) (h : exec i s = .next t) : t.Inv := by
  cases i with
  | enc =>
    obtain ⟨l, -, ⟨-, rfl⟩ | ⟨hlen, rfl⟩⟩ := execEnc_cases h
    · exact hs.completeErr fun _ => rfl
    · exact (hs.afterInput l).completeBytes
        (length_enc_le_outCap hs.config_wf ((s.length_input l).trans_le hlen))
  | dec =>
    obtain ⟨l, -, ⟨-, rfl⟩ | ⟨hlen, O, hdec, rfl⟩ | ⟨-, c, pos, hdec, rfl⟩⟩ := execDec_cases h
    · exact hs.completeErr fun _ => rfl
    · exact (hs.afterInput l).completeBytes
        (length_dec_le_outCap hs.config_wf hdec ((s.length_input l).trans_le hlen))
    · exact (hs.afterInput l).completeErr (Raises.scan hdec).pos_eq_zero_of_le
  | sym =>
    obtain ⟨l, -, ⟨-, rfl⟩ | ⟨-, rfl⟩⟩ := execSym_cases h
    · exact hs.completeErr fun _ => rfl
    · exact hs.completeByte _
  | idx =>
    obtain ⟨l, -, rfl⟩ := execIdx_cases h
    exact hs.completeByte _

theorem engineStep_inv {s t : State} (hs : s.Inv) (h : engineStep s = .next t) : t.Inv := by
  obtain ⟨-, rfl⟩ | ⟨-, l, -, ⟨i, -, hx⟩ | ⟨why, -, rfl⟩⟩ := engineStep_cases h
  · exact hs
  · exact exec_inv hs hx
  · exact hs.completeErr fun _ => rfl

/-! ## The step -/

theorem step_inv {s t : State} (hs : s.Inv) (h : step s = .next t) : t.Inv := by
  obtain ⟨-, hx⟩ | ⟨rest, -, hx⟩ | ⟨a, rest, -, hx⟩ | ⟨rest, -, rfl⟩ := step_cases h
  · exact engineStep_inv hs hx
  · exact engineStep_inv hs.popTurn hx
  · exact hx.inv hs.popTurn
  · exact hs.popTurn.resetAction

/-- The Engine's turn has an outcome: while BUSY, a command is latched. -/
theorem State.Inv.engineStep_answers {s : State} (h : s.Inv) : ∃ t, engineStep s = .next t := by
  cases hb : s.busy with
  | false => exact ⟨s, engineStep_of_idle hb⟩
  | true =>
    have hlatched : s.latch.isSome = true := h.busy_iff_latched.symm.trans hb
    obtain ⟨l, hl⟩ := Option.isSome_iff_exists.1 hlatched
    exact engineStep_of_latched hb hl

theorem State.Inv.step_answers {s : State} (h : s.Inv) : ∃ t, step s = .next t := by
  rw [step_eq_takeTurn]
  cases s.nextTurn with
  | host a => exact ⟨_, rfl⟩
  | engine => exact h.popTurn.engineStep_answers
  | reset => exact ⟨_, rfl⟩

/-- Settles O40: every turn has an outcome, and each keeps the invariant (`step_inv`). -/
theorem stepKeepsInvariant : Obligations.StepKeepsInvariant := by
  intro s hs
  obtain ⟨t, ht⟩ := hs.step_answers
  exact ⟨t, ht, step_inv hs ht⟩

/-- R7 and R8 hold of the configuration that reset carries. -/
theorem Config.hardware_wf : Config.hardware.wf :=
  ⟨by decide, by decide, by decide, Config.r72Alphabet_wf⟩

/-- Settles O39: the configuration meets its constraints, and everything else is 0 or empty. -/
theorem invariantHoldsAtReset : Obligations.InvariantHoldsAtReset := by
  refine ⟨?inv, rfl⟩
  exact {
    config_wf := Config.hardware_wf
    busy_iff_latched := rfl
    busy_clears_status := nofun
    err_iff_code := by decide
    code_le_six := Nat.zero_le 6
    inBuf_wf := State.reset_buffers_wf.1
    inBuf_bound := nofun
    outBuf_prefix := rfl
    outBuf_bound := Nat.zero_le _
    dstLen_eq := fun _ => rfl
    errPos_zero := fun _ _ => rfl
    failed_output := fun _ _ => ⟨rfl, rfl⟩
    badArg_result := fun _ => rfl }

/-! ## The configuration and the schedule -/

theorem HostEffect.config_schedule {s t : State} {a : HostAccess} (h : HostEffect s a t) :
    t.config = s.config ∧ t.schedule = s.schedule := by
  cases h <;> exact ⟨rfl, rfl⟩

theorem step_config_schedule {s t : State} (h : step s = .next t) :
    t.config = s.config ∧ t.schedule = s.schedule.tail := by
  obtain ⟨a, -, rfl⟩ | ⟨-, -, rfl⟩ | ⟨-, -, -, hk⟩ | ⟨-, rfl⟩ := step_turn_cases h
  · exact (s.popTurn.hostAccess_effect a).config_schedule
  · exact ⟨rfl, rfl⟩
  · exact ⟨hk.config, hk.schedule⟩
  · exact ⟨rfl, rfl⟩

/-- Settles O42: no turn writes either field once the turn has been taken off. -/
theorem configurationIsFixed : Obligations.ConfigurationIsFixed := fun _ _ => step_config_schedule

/-! ## A running command ends (R40) -/

theorem runsTo_one {s t : State} (h : step s = .next t) : runsTo 1 s t := by
  have hstep : Sys2Proof.core.step s = .next t := h
  simp only [runsTo, Host.Core.run, hstep]

theorem runsTo_succ {k : Nat} {s t u : State} (h : step s = .next t) (hrun : runsTo k t u) :
    runsTo (k + 1) s u := by
  have hstep : Sys2Proof.core.step s = .next t := h
  simp only [runsTo, Host.Core.run, hstep]
  exact hrun

/-- With no turn scheduled a running command completes. -/
theorem step_ends_of_nil {s t : State} (hb : s.busy = true) (hs : s.schedule = [])
    (h : step s = .next t) : t.busy = false := by
  rw [step, hs] at h
  exact (engineStep_completes hb h).1.busy

/-- Settles O41, by induction on the turns scheduled: each step ends the command or leaves one turn
fewer, and with none left the Engine moves. -/
theorem runningCommandEnds : Obligations.RunningCommandEnds := by
  intro s hs hb
  induction hturns : s.schedule generalizing s with
  | nil =>
    obtain ⟨t, ht⟩ := hs.step_answers
    exact ⟨1, t, Nat.le_refl 1, runsTo_one ht, step_ends_of_nil hb hturns ht⟩
  | cons u rest ih =>
    obtain ⟨t, ht⟩ := hs.step_answers
    cases hbt : t.busy with
    | false => exact ⟨1, t, by simp, runsTo_one ht, hbt⟩
    | true =>
      obtain ⟨-, hrest⟩ := step_config_schedule ht
      rw [hturns, List.tail_cons] at hrest
      obtain ⟨k, v, hk, hrun, hend⟩ := ih t (step_inv hs ht) hbt hrest
      exact ⟨k + 1, v, Nat.succ_le_succ hk, runsTo_succ ht hrun, hend⟩

end Sys2Proof.Machine

/-! # O47, O53 and O46: what changes the results, and what they depend on. -/

namespace Sys2Proof.Machine

/-! ## Which turns change the results (R47, R52) -/

/-- Every Host access but accept leaves the results as they are. -/
theorem HostEffect.sameResults {s t : State} {a : HostAccess} (h : HostEffect s a t)
    (hno : ¬ IsCmdWrite a) : s.SameResults t := by
  cases h
  case accept v hb => exact absurd ⟨v, rfl⟩ hno
  all_goals exact ⟨rfl, rfl, rfl, rfl, rfl, fun _ => rfl⟩

/-- No Host access writes OUT_BUF, accept included. -/
theorem HostEffect.outBuf_eq {s t : State} {a : HostAccess} (h : HostEffect s a t) :
    t.outBuf = s.outBuf := by
  cases h <;> rfl

/-- Settles O47: the turns that are left are a Host access that is no accept, and the Engine's in an idle
block. -/
theorem resultsStayUntilNextAccept : Obligations.ResultsStayUntilNextAccept := by
  intro s t hb hcmd hreset h
  obtain ⟨a, hn, rfl⟩ | ⟨-, -, rfl⟩ | ⟨-, hbusy, -⟩ | ⟨hn, -⟩ := step_turn_cases h
  · have hno : ¬ IsCmdWrite a := fun ha => hcmd (s.cmdWriteIsNext_iff.2 ⟨a, hn, ha⟩)
    obtain ⟨hdst, hres, hpos, herr, hcode, hout⟩ :=
      (s.popTurn.hostAccess_effect a).sameResults hno
    exact ⟨hdst, hres, hpos, herr, hcode, hout⟩
  · exact ⟨rfl, rfl, rfl, rfl, rfl, fun _ => rfl⟩
  · simp [hb] at hbusy
  · exact absurd (s.resetIsNext_iff.2 hn) hreset

theorem step_outBuf {s t : State} (hcompletion : ¬ (s.busy = true ∧ s.EngineIsNext))
    (hreset : ¬ s.ResetIsNext) (h : step s = .next t) : t.outBuf = s.outBuf := by
  obtain ⟨a, -, rfl⟩ | ⟨-, -, rfl⟩ | ⟨hn, hb, -⟩ | ⟨hn, -⟩ := step_turn_cases h
  · exact (s.popTurn.hostAccess_effect a).outBuf_eq
  · rfl
  · exact absurd ⟨hb, s.engineIsNext_iff.2 hn⟩ hcompletion
  · exact absurd (s.resetIsNext_iff.2 hn) hreset

/-! ## OUT_BUF after each command (R47) -/

theorem State.completeBytes_none_above {O : List Byte} {s : State} (hfits : O.length < 2 ^ 32) {a : Nat}
    (ha : (s.completeBytes O).dstLen.toNat ≤ a) : (s.completeBytes O).outBuf.read a = none := by
  rw [State.completeBytes_dstLen, s.toNat_lengthWord hfits] at ha
  rw [State.completeBytes_outBuf, Memory.read_ofBytes, List.getElem?_eq_none ha]

/-- After ENC or DEC no byte of OUT_BUF at or above DST_LEN is held. -/
theorem exec_codec_none_above {s t : State} {l : Latch} {i : Instr} (hi : i = .enc ∨ i = .dec)
    (hl : s.latch = some l) (hfits : encLen l.len.toNat < 2 ^ 32) (h : exec i s = .next t) {a : Nat}
    (ha : t.dstLen.toNat ≤ a) : t.outBuf.read a = none := by
  rcases Nat.lt_or_ge s.config.inCap l.len.toNat with hlong | hlen
  · rw [exec_codec_of_lt hi hl hlong] at h
    cases h
    rfl
  · obtain rfl | rfl := hi
    · rw [exec_enc_of_le hl hlen] at h
      cases h
      exact State.completeBytes_none_above (by rwa [length_enc, State.length_input]) ha
    · cases hdec : dec s.config.alphabet (s.input l) l.ps l.ts with
      | ok O =>
        obtain ⟨t', ht', -, hout, hdst, -⟩ := exec_dec_of_ok hl hlen hdec
        cases ht'.symm.trans h
        rw [hdst, ← s.length_input l, ← length_of_dec hdec] at ha
        rw [hout, List.getElem?_eq_none ha]
      | err c pos =>
        obtain ⟨t', ht', -, -, hout, -⟩ := exec_dec_of_err hl hlen hdec
        cases ht'.symm.trans h
        exact hout a

theorem exec_lookup_kept {s t : State} {i : Instr} (hi : i = .sym ∨ i = .idx) (h : exec i s = .next t) :
    s.KeptByLookup t := by
  obtain rfl | rfl := hi
  · obtain ⟨l, -, ⟨-, rfl⟩ | ⟨-, rfl⟩⟩ := execSym_cases h
    · exact State.completeErr_keptByLookup _ _ rfl
    · exact State.completeByte_keptByLookup ..
  · obtain ⟨l, -, rfl⟩ := execIdx_cases h
    exact State.completeByte_keptByLookup ..

/-- Settles O53: the turns, the ignored write, and the commands by what each leaves in OUT_BUF. -/
theorem outputWrittenOnlyByCompletion : Obligations.OutputWrittenOnlyByCompletion := by
  refine ⟨fun s t hcompletion hreset h a => ?turns, fun s i v hi => ?ignored,
    fun s t l i hi hl hfits h a => exec_codec_none_above hi hl hfits h,
    fun s t i hi h => (exec_lookup_kept hi h).outBuf, fun s t l hb hl hop h a => ?reserved⟩
  case turns => rw [step_outBuf hcompletion hreset h]
  case ignored => simp [State.hostAccess, classify, hi, State.perform]
  case reserved =>
    rw [engineStep_of_reserved hb hl hop] at h
    cases h
    rfl

/-! ## What the results depend on (R33, R61) -/

/-- States that agree on the latched input and the draws taken read the same bytes and draws. -/
theorem fetch_eq_of_agree {s s' : State} {l : Latch} (hdraws : s'.draws = s.draws)
    (hin : ∀ a, a < l.len.toNat → s'.inBuf.read a = s.inBuf.read a) :
    s'.input l = s.input l ∧ (s'.afterInput l).draws = (s.afterInput l).draws := by
  have hfetch : s'.inBuf.fetch l.length 0 s'.draws = s.inBuf.fetch l.length 0 s.draws := by
    rw [hdraws]
    exact Memory.fetch_congr fun k hk => by rw [Nat.zero_add]; exact hin k hk
  exact ⟨congrArg Prod.fst hfetch, congrArg Prod.snd hfetch⟩

/-- The results that a command writes or clears: those of every command, the output, and RESULT. -/
structure State.AgreeAfter (i : Instr) (t t' : State) : Prop where
  err : t'.err = t.err
  errCode : t'.errCode = t.errCode
  errPos : t'.errPos = t.errPos
  draws : t'.draws = t.draws
  output : i = .enc ∨ i = .dec → t'.dstLen = t.dstLen ∧ ∀ a, t'.outBuf.read a = t.outBuf.read a
  result : i = .sym ∨ i = .idx → t'.result = t.result

/-- DST_LEN and the draws of a success look at the state by its draws only. -/
theorem State.completeBytes_agree {s s' : State} {i : Instr} (hi : i = .enc ∨ i = .dec) (O : List Byte)
    (hdraws : s'.draws = s.draws) : State.AgreeAfter i (s.completeBytes O) (s'.completeBytes O) where
  err := rfl
  errCode := rfl
  errPos := rfl
  draws := by simp only [State.completeBytes_draws, State.drawsAfterLength, hdraws]
  output _ := ⟨by simp only [State.completeBytes_dstLen, State.lengthWord, hdraws], fun _ => rfl⟩
  result hlookup := by rcases hi with rfl | rfl <;> simp at hlookup

/-- An error that clears every result its command writes leaves nothing of the state before. -/
theorem State.completeErr_agree {s s' : State} {i : Instr} {c : ErrorCode}
    (hout : i = .enc ∨ i = .dec → c.clearsOutput = true)
    (hres : i = .sym ∨ i = .idx → c.clearsResult = true) (pos : Nat) (hdraws : s'.draws = s.draws) :
    State.AgreeAfter i (s.completeErr c pos) (s'.completeErr c pos) where
  err := rfl
  errCode := rfl
  errPos := rfl
  draws := hdraws
  output hi := ⟨by simp [hout hi], fun _ => by simp [hout hi]⟩
  result hi := by simp [hres hi]

theorem State.completeByte_agree {s s' : State} {i : Instr} (hi : i = .sym ∨ i = .idx) (r : Byte)
    (hdraws : s'.draws = s.draws) : State.AgreeAfter i (s.completeByte r) (s'.completeByte r) where
  err := rfl
  errCode := rfl
  errPos := rfl
  draws := hdraws
  output hcodec := by rcases hi with rfl | rfl <;> simp at hcodec
  result _ := rfl

theorem exec_agree {i : Instr} {s s' t : State} {l : Latch} (hl : s.latch = some l)
    (hl' : s'.latch = some l) (hconfig : s'.config = s.config) (hdraws : s'.draws = s.draws)
    (hin : ∀ a, a < l.len.toNat → s'.inBuf.read a = s.inBuf.read a) (h : exec i s = .next t) :
    ∃ t', exec i s' = .next t' ∧ State.AgreeAfter i t t' := by
  obtain ⟨hinput, hafter⟩ := fetch_eq_of_agree hdraws hin
  cases i with
  | enc =>
    obtain ⟨l₀, hl₀, ⟨hlen, rfl⟩ | ⟨hlen, rfl⟩⟩ := execEnc_cases h
    all_goals cases hl.symm.trans hl₀; rw [← hconfig] at hlen
    · exact ⟨_, exec_codec_of_lt (.inl rfl) hl' hlen,
        State.completeErr_agree (fun _ => rfl) (by simp) 0 hdraws⟩
    · refine ⟨_, exec_enc_of_le hl' hlen, ?_⟩
      rw [hinput, hconfig]
      exact State.completeBytes_agree (.inl rfl) _ hafter
  | dec =>
    obtain ⟨l₀, hl₀, ⟨hlen, rfl⟩ | ⟨hlen, O, hdec, rfl⟩ | ⟨hlen, c, pos, hdec, rfl⟩⟩ := execDec_cases h
    all_goals cases hl.symm.trans hl₀; rw [← hconfig] at hlen
    · exact ⟨_, exec_codec_of_lt (.inr rfl) hl' hlen,
        State.completeErr_agree (fun _ => rfl) (by simp) 0 hdraws⟩
    all_goals
      refine ⟨_, exec_dec_of_le hl' hlen, ?_⟩
      rw [hinput, hconfig, hdec]
    · exact State.completeBytes_agree (.inr rfl) O hafter
    · exact State.completeErr_agree (fun _ => (clears_of_dec_err hdec).1) (by simp) pos hafter
  | sym =>
    obtain ⟨l₀, hl₀, ⟨hindex, rfl⟩ | ⟨hindex, rfl⟩⟩ := execSym_cases h
    all_goals cases hl.symm.trans hl₀
    · exact ⟨_, exec_sym_of_lt hl' hindex,
        State.completeErr_agree (by simp) (fun _ => rfl) 0 hdraws⟩
    · refine ⟨_, exec_sym_of_le hl' hindex, ?_⟩
      rw [hconfig]
      exact State.completeByte_agree (.inl rfl) _ hdraws
  | idx =>
    obtain ⟨l₀, hl₀, rfl⟩ := execIdx_cases h
    cases hl.symm.trans hl₀
    refine ⟨_, exec_idx_of_latched hl', ?_⟩
    rw [hconfig]
    exact State.completeByte_agree (.inr rfl) _ hdraws

/-- Settles O46: both states take the same arm of the command on the same bytes. -/
theorem resultsDependOnLatchAndInput : Obligations.ResultsDependOnLatchAndInput := by
  intro i s s' t l hl hl' hconfig hdraws hin h
  obtain ⟨t', ht', herr, hcode, hpos, hdr, hout, hres⟩ := exec_agree hl hl' hconfig hdraws hin h
  exact ⟨t', ht', herr, hcode, hpos, hdr, hout, hres⟩

end Sys2Proof.Machine

/-! # O2, O3, O4 and O5: the words of the commands, and what a step runs. -/

namespace Sys2Proof.Machine

theorem encode_wf : ∀ i, CommandWord.wf (encode i)
  | .enc => Laws.CommandWord.enc.1
  | .dec => Laws.CommandWord.dec.1
  | .sym => Laws.CommandWord.sym.1
  | .idx => Laws.CommandWord.idx.1

theorem instr_wf (i : Instr) : i.wf = true := by
  cases i <;> rfl

/-- An OP in 1..4 selects a command (R59). -/
theorem decodeOp_of_range {op : BitVec 4} (hlo : 1 ≤ op.toNat) (hhi : op.toNat ≤ 4) :
    ∃ i, decodeOp op = .command i := by
  have hop : op = 1#4 ∨ op = 2#4 ∨ op = 3#4 ∨ op = 4#4 := by bv_omega
  obtain rfl | rfl | rfl | rfl := hop
  · exact ⟨.enc, rfl⟩
  · exact ⟨.dec, rfl⟩
  · exact ⟨.sym, rfl⟩
  · exact ⟨.idx, rfl⟩

/-- A well-formed word decodes to a command, so it is that command's word. -/
theorem exists_encode_of_wf {w : Word} (h : CommandWord.wf w) : ∃ i, w = encode i := by
  obtain ⟨hzero, hlo, hhi⟩ := h
  obtain ⟨i, hi⟩ := decodeOp_of_range (op := opField w) hlo hhi
  exact ⟨i, decode_eq_command ((if_pos hzero).trans hi)⟩

/-- Settles O2: the decoder undoes the encoder (`decode_eq_command_iff`), whose words are well formed. -/
theorem decodeEncodeAgree : Obligations.DecodeEncodeAgree := by
  refine ⟨fun i _ => ⟨decode_encode i, encode_wf i, fun w => decode_eq_command⟩, fun w hw => ?_⟩
  obtain ⟨i, hi⟩ := exists_encode_of_wf hw
  exact ⟨i, instr_wf i, hi⟩

/-- Settles O3: the four words of the encoder, and three that have none of its patterns. -/
theorem writtenOutWordsDecode : Obligations.WrittenOutWordsDecode :=
  ⟨decode_encode .enc, decode_encode .dec, decode_encode .sym, decode_encode .idx, rfl, rfl, rfl⟩

/-- Settles O4: the Engine's turn is `exec` of the command whose word is latched. -/
theorem stepRunsDecodedCommand : Obligations.StepRunsDecodedCommand := by
  intro s l i _ hn hb hl hd
  rw [step_eq_takeTurn, s.engineIsNext_iff.1 hn]
  exact engineStep_of_encode (s := s.popTurn) hb hl (decode_eq_command hd)

theorem step_of_cons {s : State} {u : Turn} {rest : List Turn} (h : s.schedule = u :: rest) :
    step s = takeTurn u { s with schedule := rest } := by
  simp only [step, State.popTurn, h, List.tail_cons]

/-- Settles O5: `step_of_cons` for each turn; the Engine's finds BUSY 0. -/
theorem stepTakesFirstTurn : Obligations.StepTakesFirstTurn := by
  refine fun s rest => ⟨fun a h => step_of_cons h, fun h => step_of_cons h, fun h hb => ?engine,
    fun h hb => ?none⟩
  case engine => exact (step_of_cons h).trans (engineStep_of_idle hb)
  case none =>
    rw [step, h]
    exact engineStep_of_idle hb

end Sys2Proof.Machine

/-! # O52, O55, O56 and O58: Host reads, and writes that take effect at once. -/

namespace Sys2Proof.Machine

/-! ## A byte of IN_BUF (R46) -/

theorem State.writeIn_of_idle {s : State} (i : Nat) (b : Byte) (hb : s.busy = false) :
    s.writeIn i b = s.storeIn i b := by
  simp [State.writeIn, hb]

/-- A read of a byte of IN_BUF answers what it holds. -/
theorem State.readIn_of_some {s : State} {i : Nat} {b : Byte} (hi : i < s.config.inCap)
    (h : s.inBuf.read i = some b) : s.hostAccess (readInAccess i) = s.answer (.byte b) := by
  rw [State.hostAccess_readInAccess hi, h]
  rfl

/-- A read of a byte of IN_BUF that holds none is a draw. -/
theorem State.readIn_of_none {s : State} {i : Nat} (hi : i < s.config.inCap)
    (h : s.inBuf.read i = none) :
    s.hostAccess (readInAccess i) = s.answerDraw (.byte (Config.drawByte s.draws)) := by
  rw [State.hostAccess_readInAccess hi, h]
  rfl

/-- Settles O52: an idle write is `storeIn`, whose byte the read then finds (`Memory.read_write`). -/
theorem inputWriteReadsBack : Obligations.InputWriteReadsBack := by
  intro s i b hb hi
  rw [State.hostAccess_writeInAccess b hi, State.writeIn_of_idle i b hb]
  have hread (a : Nat) : (s.storeIn i b).inBuf.read a = if a = i then some b else s.inBuf.read a :=
    Memory.read_write s.inBuf i b a
  refine ⟨hread, rfl, ?back, fun hnone => ?fresh⟩
  case back => rw [State.readIn_of_some (s := s.storeIn i b) hi ((hread i).trans (if_pos rfl))]; rfl
  case fresh => rw [State.readIn_of_none hi hnone]; exact ⟨rfl, rfl⟩

/-! ## Reads while idle (R18 to R30, R46) -/

theorem State.readResult_of_idle {s : State} (held drawn : Word) (hb : s.busy = false) :
    s.readResult held drawn = s.answer (.word held) := by
  simp [State.readResult, hb]

theorem State.readOut_of_idle {s : State} (i : Nat) (hb : s.busy = false) :
    s.readOut i = s.readByte (s.outBuf.read i) := by
  simp [State.readOut, hb]

/-- Settles O55: a register answers its field; of the bytes of a buffer, only those that hold none draw. -/
theorem readsWhileIdle : Obligations.ReadsWhileIdle := by
  intro s hb
  refine ⟨hb ▸ s.readStatus_bits, s.readCfg_bits, ?cmd, ?srcLen, ?dstLen, ?arg, ?result, ?errPos,
    fun i b hi hheld => ?inHeld, fun i b hi hheld => ?outHeld, fun i hi hnone => ?inNone,
    fun i hi hnone => ?outNone⟩
  case cmd => rw [s.hostAccess_readAccess (r := .cmd) rfl]; rfl
  case srcLen => rw [s.hostAccess_readAccess (r := .srcLen) rfl]; rfl
  case dstLen =>
    rw [s.hostAccess_readAccess (r := .dstLen) rfl, State.readReg, State.readResult_of_idle _ _ hb]; rfl
  case arg => rw [s.hostAccess_readAccess (r := .arg) rfl]; rfl
  case result =>
    rw [s.hostAccess_readAccess (r := .result) rfl, State.readReg, State.readResult_of_idle _ _ hb]; rfl
  case errPos =>
    rw [s.hostAccess_readAccess (r := .errPos) rfl, State.readReg, State.readResult_of_idle _ _ hb]; rfl
  case inHeld => rw [State.readIn_of_some hi hheld]; rfl
  case outHeld => rw [State.hostAccess_readOutAccess hi, State.readOut_of_idle i hb, hheld]; rfl
  case inNone => rw [State.readIn_of_none hi hnone]; exact ⟨rfl, rfl⟩
  case outNone =>
    rw [State.hostAccess_readOutAccess hi, State.readOut_of_idle i hb, hnone]; exact ⟨rfl, rfl⟩

/-! ## Reads have no side effects (R50) -/

/-- The fields that a read moves are none of the block's. -/
theorem State.sameBlock_frame (s : State) (refused : Bool) (draws : Nat) (data : ReadData) :
    s.SameBlock { s with refused := refused, draws := draws, readData := data } :=
  ⟨rfl, rfl, rfl, rfl, rfl, ⟨rfl, rfl, rfl, rfl, rfl, fun _ => rfl⟩, rfl, rfl, rfl, rfl, fun _ => rfl, rfl,
    rfl⟩

theorem HostEffect.sameBlock_of_read {s t : State} {a : HostAccess} (h : HostEffect s a t)
    (hread : a.dir = .read) : s.SameBlock t := by
  cases h with
  | refuse | answer | answerDraw => exact s.sameBlock_frame ..
  | _ => cases hread

/-- Settles O56: a read is refused, answers, or draws. -/
theorem readsHaveNoSideEffects : Obligations.ReadsHaveNoSideEffects := fun s a hread =>
  (s.hostAccess_effect a).sameBlock_of_read hread

/-! ## Writes that take effect at once (R21, R23, R25, R26, R28) -/

/-- A mask of `n` ones keeps the low-order `n` bits. -/
theorem getLsbD_and_mask (v : Word) (n : Nat) {k : Nat} (hk : k < 32) :
    (v &&& BitVec.ofNat 32 (2 ^ n - 1)).getLsbD k = (decide (k < n) && v.getLsbD k) := by
  rw [BitVec.getLsbD_and, BitVec.getLsbD_ofNat, Nat.testBit_two_pow_sub_one, decide_eq_true hk,
    Bool.true_and, Bool.and_comm]

/-- CFG reads back the three bits written. -/
theorem State.writeCfg_cfgWord (s : State) (v : Word) : (s.writeCfg v).cfgWord = v &&& 0x00000007#32 := by
  refine BitVec.eq_of_getLsbD_eq fun k hk => Eq.trans ?_ (getLsbD_and_mask v 3 hk).symm
  simp only [State.cfgWord, BitVec.getLsbD_append]
  match k with
  | 0 => simp
  | 1 => simp
  | 2 => simp
  | k + 3 => simp

/-- ARG reads back the byte written. -/
theorem setWidth_setWidth_eq_and (v : Word) : (v.setWidth 8).setWidth 32 = v &&& 0x000000FF#32 := by
  refine BitVec.eq_of_getLsbD_eq fun k hk => Eq.trans ?_ (getLsbD_and_mask v 8 hk).symm
  rw [BitVec.getLsbD_setWidth, BitVec.getLsbD_setWidth, decide_eq_true hk, Bool.true_and]

/-- Settles O58: each write is the record update of its register, and the reads see the new fields. -/
theorem registerWritesTakeEffectAtOnce : Obligations.RegisterWritesTakeEffectAtOnce := by
  intro s v
  rw [s.hostAccess_writeStatus, s.hostAccess_writeCfg, s.hostAccess_writeArg,
    s.hostAccess_writeAccess (r := .srcLen) v rfl]
  refine ⟨rfl, rfl, ?cfg, rfl, rfl, ?arg⟩
  case cfg =>
    rw [State.hostAccess_readAccess _ (r := .cfg) rfl]
    exact congrArg ReadData.word (s.writeCfg_cfgWord v)
  case arg =>
    rw [State.hostAccess_readAccess _ (r := .arg) rfl]
    exact congrArg ReadData.word (setWidth_setWidth_eq_and v)

end Sys2Proof.Machine
